-- ==== Sys2Proof/Word.lean ====
section
/-! DEFINITION. The widths of the block's values (spec 00_scope.md R5) and the micro-word record (30_encoding.md R61). -/

namespace Sys2Proof

/-- A data-path value: B, D, the B constant, the bus inputs, the display latch (00_scope.md R5). -/
abbrev Word := BitVec 16

/-- One byte of a data-path value, and the branch-control value (00_scope.md R5, 44_branch_evaluator.md R166). -/
abbrev Byte := BitVec 8

/-- A micro-address (00_scope.md R5). -/
abbrev MicroAddr := BitVec 8

/-- The canonical packed form of a ROM entry (30_encoding.md R64). -/
abbrev PackedWord := BitVec 32

/-- The five fields of every micro-word to which no rule gives a width, a value or a behaviour
(30_encoding.md R63, log 12): ALU, status-word update, discrete data alterations, bus controls, per-pulse clock and
write-enable controls. A word carries them as numbers of no stated width and no rule reads them. -/
structure Uninterpreted where
  aluf  : Nat := 0
  pswf  : Nat := 0
  dadf  : Nat := 0
  busf  : Nat := 0
  pclkf : Nat := 0
  deriving DecidableEq, Repr, Inhabited

/-- An implemented ROM entry, in the record form that 30_encoding.md R64 calls normative. Selector fields are
natural numbers (R62, log 13), so the consumers' range checks (R127, R131, R155, R167) can be met; PROG is data (R68). -/
structure MicroWord where
  prog : MicroAddr
  brf  : Nat
  bcs  : Nat
  bms  : Nat
  dms  : Nat
  clkf : Nat
  rest : Uninterpreted := {}
  deriving DecidableEq, Repr, Inhabited

end Sys2Proof
end

