-- ==== Sys2Proof/Syntax.lean ====
section
/-! DEFINITION. The instructions: one constructor per row of spec/opcode_table.json (30_encoding.md R70, R74). A row is
one value of one field of the micro-word; a micro-word selects one row of every field at once (R75). -/

namespace Sys2Proof

/-- A row of the opcode table: a value of one micro-word field, with the rule that gives its behaviour. -/
inductive Instr where
  /-- `IMPL.0`, rule R45. -/
  | impl0
  /-- `IMPL.1`, rule R44. -/
  | impl1
  /-- `PROG`, rule R214. -/
  | prog (p : MicroAddr)
  /-- `BC.00`, rule R111. -/
  | bc00
  /-- `BC.01`, rule R112. -/
  | bc01
  /-- `BC.02`, rule R113. -/
  | bc02
  /-- `BC.03`, rule R114. -/
  | bc03
  /-- `BC.04`, rule R115. -/
  | bc04
  /-- `BC.05`, rule R116. -/
  | bc05
  /-- `BC.06`, rule R117. -/
  | bc06
  /-- `BC.07`, rule R118. -/
  | bc07
  /-- `BC.10`, rule R119. -/
  | bc10
  /-- `BC.11`, rule R120. -/
  | bc11
  /-- `BC.12`, rule R121. -/
  | bc12
  /-- `BC.13`, rule R122. -/
  | bc13
  /-- `BC.14`, rule R123. -/
  | bc14
  /-- `BC.15`, rule R124. -/
  | bc15
  /-- `BC.16`, rule R125. -/
  | bc16
  /-- `BC.17`, rule R126. -/
  | bc17
  /-- `BML.0`, rule R132. -/
  | bml0
  /-- `BML.1`, rule R133. -/
  | bml1
  /-- `BML.2`, rule R134. -/
  | bml2
  /-- `BML.3`, rule R135. -/
  | bml3
  /-- `BMH.0`, rule R136. -/
  | bmh0
  /-- `BMH.1`, rule R137. -/
  | bmh1
  /-- `BMH.2`, rule R138. -/
  | bmh2
  /-- `BMH.3`, rule R139. -/
  | bmh3
  /-- `DM.0`, rule R151. -/
  | dm0
  /-- `DM.1`, rule R152. -/
  | dm1
  /-- `DM.2`, rule R153. -/
  | dm2
  /-- `DM.3`, rule R154. -/
  | dm3
  /-- `BUT.00`, rule R170. -/
  | but00
  /-- `BUT.01`, rule R171. -/
  | but01
  /-- `BUT.02`, rule R172. -/
  | but02
  /-- `BUT.03`, rule R173. -/
  | but03
  /-- `BUT.04`, rule R174. -/
  | but04
  /-- `BUT.05`, rule R175. -/
  | but05
  /-- `BUT.06`, rule R176. -/
  | but06
  /-- `BUT.07`, rule R177. -/
  | but07
  /-- `BUT.10`, rule R178. -/
  | but10
  /-- `BUT.11`, rule R179. -/
  | but11
  /-- `BUT.12`, rule R180. -/
  | but12
  /-- `BUT.13`, rule R181. -/
  | but13
  /-- `BUT.14`, rule R182. -/
  | but14
  /-- `BUT.15`, rule R183. -/
  | but15
  /-- `BUT.16`, rule R184. -/
  | but16
  /-- `BUT.17`, rule R185. -/
  | but17
  /-- `BUT.20`, rule R186. -/
  | but20
  /-- `BUT.21`, rule R187. -/
  | but21
  /-- `BUT.22`, rule R188. -/
  | but22
  /-- `BUT.23`, rule R189. -/
  | but23
  /-- `BUT.24`, rule R190. -/
  | but24
  /-- `BUT.25`, rule R191. -/
  | but25
  /-- `BUT.26`, rule R192. -/
  | but26
  /-- `BUT.27`, rule R193. -/
  | but27
  /-- `BUT.30`, rule R194. -/
  | but30
  /-- `BUT.31`, rule R195. -/
  | but31
  /-- `BUT.32`, rule R196. -/
  | but32
  /-- `BUT.33`, rule R197. -/
  | but33
  /-- `BUT.34`, rule R198. -/
  | but34
  /-- `BUT.35`, rule R199. -/
  | but35
  /-- `BUT.36`, rule R200. -/
  | but36
  /-- `BUT.37`, rule R201. -/
  | but37
  /-- `CLK.0`, rule R99. -/
  | clk0
  /-- `CLK.1`, rule R100. -/
  | clk1
  /-- `CLK.2`, rule R101. -/
  | clk2
  /-- `CLK.3`, rule R102. -/
  | clk3
  /-- `CLK.4`, rule R103. -/
  | clk4
  /-- `CLK.5`, rule R104. -/
  | clk5
  /-- `CLK.6`, rule R105. -/
  | clk6
  /-- `CLK.7`, rule R106. -/
  | clk7
  deriving DecidableEq, Repr

end Sys2Proof
end

