-- ==== Sys2Proof/WellFormed.lean ====
section
/-! DEFINITION. Which micro-word records fit the widths of 30_encoding.md R61: exactly those the packed form of R64
can spell. Every term of Instr is well formed: its one operand has its width in its type. -/

namespace Sys2Proof

/-- Each selector lies in the range its field can hold (30_encoding.md R61, column "legal range"; R62). -/
def MicroWord.wf (w : MicroWord) : Bool :=
  decide (w.brf < 32) && decide (w.bcs < 16) && decide (w.bms < 16) && decide (w.dms < 4) && decide (w.clkf < 8)

end Sys2Proof
end

