-- ==== Sys2Proof/Decode.lean ====
section
/-! DEFINITION. The packed form of a micro-word (30_encoding.md R64), its fields taken apart (R65 to R68), the decoder
that reads one row per field (R75), and the encoder. -/

namespace Sys2Proof

/-- The fields that opcode-table rows are values of; `bml` and `bmh` are the two halves of BMS (30_encoding.md R65). -/
inductive Field where
  | impl | prog | bcs | bml | bmh | dms | brf | clkf
  deriving DecidableEq, Repr

/-- The lowest bit of a field in the packed form (30_encoding.md R64). -/
def Field.low : Field → Nat
  | .impl => 31
  | .prog => 0
  | .bcs => 13
  | .bml => 17
  | .bmh => 19
  | .dms => 21
  | .brf => 8
  | .clkf => 23

/-- The width of a field in bits (30_encoding.md R61, R65). -/
def Field.width : Field → Nat
  | .impl => 1
  | .prog => 8
  | .bcs => 4
  | .bml => 2
  | .bmh => 2
  | .dms => 2
  | .brf => 5
  | .clkf => 3

/-- The value of a field of a packed word, as an unsigned number. -/
def Field.read (f : Field) (W : PackedWord) : Nat := (W.extractLsb' f.low f.width).toNat

/-- Bit 31 of a packed word: whether the entry is implemented (30_encoding.md R64). -/
def implBit (W : PackedWord) : Bool := W.getLsbD 31

/-- The entry a packed word spells: `none` when bit 31 is 0 (its other bits have no meaning), else the record.
Bits 30:26 are ignored; the uninterpreted fields are not packed and read as left out (30_encoding.md R64, R73, log 11). -/
def unpack (W : PackedWord) : Option MicroWord :=
  if implBit W then
    some
      { prog := W.extractLsb' 0 8
        brf  := (W.extractLsb' 8 5).toNat
        bcs  := (W.extractLsb' 13 4).toNat
        bms  := (W.extractLsb' 17 4).toNat
        dms  := (W.extractLsb' 21 2).toNat
        clkf := (W.extractLsb' 23 3).toNat }
  else none

/-- The packed word of a well-formed record:
`W = IMPL<<31 | CLKF<<23 | DMS<<21 | BMS<<17 | BCS<<13 | BRF<<8 | PROG` (30_encoding.md R64). -/
def pack (w : MicroWord) : PackedWord :=
  (BitVec.ofNat 32 1 <<< 31) ||| (BitVec.ofNat 32 w.clkf <<< 23) ||| (BitVec.ofNat 32 w.dms <<< 21) |||
    (BitVec.ofNat 32 w.bms <<< 17) ||| (BitVec.ofNat 32 w.bcs <<< 13) ||| (BitVec.ofNat 32 w.brf <<< 8) |||
    w.prog.setWidth 32

/-- The packed word of an entry; an unimplemented one is written with every bit 0. -/
def packEntry : Option MicroWord → PackedWord
  | none => 0
  | some w => pack w

/-- The row of the flag: IMPL.0 for an unimplemented entry, IMPL.1 for an implemented one (20_memory.md R44, R45). -/
def implRow : Option MicroWord → Instr
  | none => .impl0
  | some _ => .impl1

/-- The row of a BCS value (41_b_constant.md R111 to R126); none out of range. -/
def bcRow : Nat → Option Instr
  | 0 => some .bc00
  | 1 => some .bc01
  | 2 => some .bc02
  | 3 => some .bc03
  | 4 => some .bc04
  | 5 => some .bc05
  | 6 => some .bc06
  | 7 => some .bc07
  | 8 => some .bc10
  | 9 => some .bc11
  | 10 => some .bc12
  | 11 => some .bc13
  | 12 => some .bc14
  | 13 => some .bc15
  | 14 => some .bc16
  | 15 => some .bc17
  | _ => none

/-- The row of a low-byte selector, BMS[1:0] (42_b_mux.md R132 to R135). -/
def bmlRow : Nat → Option Instr
  | 0 => some .bml0
  | 1 => some .bml1
  | 2 => some .bml2
  | 3 => some .bml3
  | _ => none

/-- The row of a high-byte selector, BMS[3:2] (42_b_mux.md R136 to R139). -/
def bmhRow : Nat → Option Instr
  | 0 => some .bmh0
  | 1 => some .bmh1
  | 2 => some .bmh2
  | 3 => some .bmh3
  | _ => none

/-- The row of a DMS value (43_d_mux.md R151 to R154); none out of range. -/
def dmRow : Nat → Option Instr
  | 0 => some .dm0
  | 1 => some .dm1
  | 2 => some .dm2
  | 3 => some .dm3
  | _ => none

/-- The row of a BRF value (44_branch_evaluator.md R170 to R201); none out of range. -/
def butRow : Nat → Option Instr
  | 0 => some .but00
  | 1 => some .but01
  | 2 => some .but02
  | 3 => some .but03
  | 4 => some .but04
  | 5 => some .but05
  | 6 => some .but06
  | 7 => some .but07
  | 8 => some .but10
  | 9 => some .but11
  | 10 => some .but12
  | 11 => some .but13
  | 12 => some .but14
  | 13 => some .but15
  | 14 => some .but16
  | 15 => some .but17
  | 16 => some .but20
  | 17 => some .but21
  | 18 => some .but22
  | 19 => some .but23
  | 20 => some .but24
  | 21 => some .but25
  | 22 => some .but26
  | 23 => some .but27
  | 24 => some .but30
  | 25 => some .but31
  | 26 => some .but32
  | 27 => some .but33
  | 28 => some .but34
  | 29 => some .but35
  | 30 => some .but36
  | 31 => some .but37
  | _ => none

/-- The row of a CLKF value (40_clock_model.md R99 to R106); none out of range. -/
def clkRow : Nat → Option Instr
  | 0 => some .clk0
  | 1 => some .clk1
  | 2 => some .clk2
  | 3 => some .clk3
  | 4 => some .clk4
  | 5 => some .clk5
  | 6 => some .clk6
  | 7 => some .clk7
  | _ => none

/-- Why a field of a packed word reads as no row. -/
inductive DecodeError where
  /-- The entry is unimplemented: it "carries no valid field values" (30_encoding.md R71). -/
  | noFields
  /-- The value is outside the field's range (30_encoding.md R62); no packed word has one. -/
  | outOfRange (f : Field) (value : Nat)
  deriving DecidableEq, Repr

/-- The row of field `f` with value `v` in an implemented word. -/
def rowOf (f : Field) (v : Nat) : Option Instr :=
  match f with
  | .impl => if v = 1 then some .impl1 else none
  | .prog => if v < 256 then some (.prog (BitVec.ofNat 8 v)) else none
  | .bcs => bcRow v
  | .bml => bmlRow v
  | .bmh => bmhRow v
  | .dms => dmRow v
  | .brf => butRow v
  | .clkf => clkRow v

/-- The decoder: the one row that field `f` of packed word `W` selects (30_encoding.md R75), or why there is none. -/
def decodeField (f : Field) (W : PackedWord) : Except DecodeError Instr :=
  if implBit W then
    match rowOf f (f.read W) with
    | some i => .ok i
    | none => .error (.outOfRange f (f.read W))
  else
    match f with
    | .impl => .ok .impl0
    | _ => .error .noFields

/-- The eight rows a packed word selects together (30_encoding.md R75), in the order of the opcode table; of an
unimplemented entry, IMPL.0 alone (R71). -/
def rowsOf (W : PackedWord) : List Instr :=
  [Field.impl, .prog, .bcs, .bml, .bmh, .dms, .brf, .clkf].filterMap fun f => (decodeField f W).toOption

/-- The field an instruction is a value of. -/
def Instr.field : Instr → Field
  | .impl0 => .impl
  | .impl1 => .impl
  | .prog _ => .prog
  | .bc00 => .bcs
  | .bc01 => .bcs
  | .bc02 => .bcs
  | .bc03 => .bcs
  | .bc04 => .bcs
  | .bc05 => .bcs
  | .bc06 => .bcs
  | .bc07 => .bcs
  | .bc10 => .bcs
  | .bc11 => .bcs
  | .bc12 => .bcs
  | .bc13 => .bcs
  | .bc14 => .bcs
  | .bc15 => .bcs
  | .bc16 => .bcs
  | .bc17 => .bcs
  | .bml0 => .bml
  | .bml1 => .bml
  | .bml2 => .bml
  | .bml3 => .bml
  | .bmh0 => .bmh
  | .bmh1 => .bmh
  | .bmh2 => .bmh
  | .bmh3 => .bmh
  | .dm0 => .dms
  | .dm1 => .dms
  | .dm2 => .dms
  | .dm3 => .dms
  | .but00 => .brf
  | .but01 => .brf
  | .but02 => .brf
  | .but03 => .brf
  | .but04 => .brf
  | .but05 => .brf
  | .but06 => .brf
  | .but07 => .brf
  | .but10 => .brf
  | .but11 => .brf
  | .but12 => .brf
  | .but13 => .brf
  | .but14 => .brf
  | .but15 => .brf
  | .but16 => .brf
  | .but17 => .brf
  | .but20 => .brf
  | .but21 => .brf
  | .but22 => .brf
  | .but23 => .brf
  | .but24 => .brf
  | .but25 => .brf
  | .but26 => .brf
  | .but27 => .brf
  | .but30 => .brf
  | .but31 => .brf
  | .but32 => .brf
  | .but33 => .brf
  | .but34 => .brf
  | .but35 => .brf
  | .but36 => .brf
  | .but37 => .brf
  | .clk0 => .clkf
  | .clk1 => .clkf
  | .clk2 => .clkf
  | .clk3 => .clkf
  | .clk4 => .clkf
  | .clk5 => .clkf
  | .clk6 => .clkf
  | .clk7 => .clkf

/-- The value of that field, an unsigned number; the digits of a row's mnemonic are octal (30_encoding.md R74). -/
def Instr.value : Instr → Nat
  | .impl0 => 0
  | .impl1 => 1
  | .prog p => p.toNat
  | .bc00 => 0
  | .bc01 => 1
  | .bc02 => 2
  | .bc03 => 3
  | .bc04 => 4
  | .bc05 => 5
  | .bc06 => 6
  | .bc07 => 7
  | .bc10 => 8
  | .bc11 => 9
  | .bc12 => 10
  | .bc13 => 11
  | .bc14 => 12
  | .bc15 => 13
  | .bc16 => 14
  | .bc17 => 15
  | .bml0 => 0
  | .bml1 => 1
  | .bml2 => 2
  | .bml3 => 3
  | .bmh0 => 0
  | .bmh1 => 1
  | .bmh2 => 2
  | .bmh3 => 3
  | .dm0 => 0
  | .dm1 => 1
  | .dm2 => 2
  | .dm3 => 3
  | .but00 => 0
  | .but01 => 1
  | .but02 => 2
  | .but03 => 3
  | .but04 => 4
  | .but05 => 5
  | .but06 => 6
  | .but07 => 7
  | .but10 => 8
  | .but11 => 9
  | .but12 => 10
  | .but13 => 11
  | .but14 => 12
  | .but15 => 13
  | .but16 => 14
  | .but17 => 15
  | .but20 => 16
  | .but21 => 17
  | .but22 => 18
  | .but23 => 19
  | .but24 => 20
  | .but25 => 21
  | .but26 => 22
  | .but27 => 23
  | .but30 => 24
  | .but31 => 25
  | .but32 => 26
  | .but33 => 27
  | .but34 => 28
  | .but35 => 29
  | .but36 => 30
  | .but37 => 31
  | .clk0 => 0
  | .clk1 => 1
  | .clk2 => 2
  | .clk3 => 3
  | .clk4 => 4
  | .clk5 => 5
  | .clk6 => 6
  | .clk7 => 7

/-- A packed word with bit 31 set, value `v` in field `f`, and every other field left out (0). -/
def place (f : Field) (v : Nat) : PackedWord := 0x80000000 ||| (BitVec.ofNat 32 v <<< f.low)

/-- The encoder: a row's word in the canonical packing, its own field written and every other field left out
(30_encoding.md R64, R73). An unimplemented entry is the word 0. -/
def encode : Instr → PackedWord
  | .impl0 => 0
  | i => place i.field i.value

/-- The fields in the order of the opcode table, without the flag. -/
def selectorFields : List Field := [.prog, .bcs, .bml, .bmh, .dms, .brf, .clkf]

/-- One row for a whole word: the row of the first field, in table order, that the word WRITES (a field left out is 0,
30_encoding.md R73); IMPL.1 where it writes none; IMPL.0 where bit 31 is 0. A word selects a row of every field
(R75, `decodeField` and `rowsOf`), so this is only the name a table word goes by (log 10). -/
def primaryRow (W : PackedWord) : Option Instr :=
  if implBit W then
    match selectorFields.find? (fun f => f.read W != 0) with
    | some f => (decodeField f W).toOption
    | none => (decodeField .impl W).toOption
  else (decodeField .impl W).toOption

/-- The packed word whose lowest `nbits` bits are those of `w`, every bit above them 0. -/
def tableWord (nbits w : Nat) : PackedWord := BitVec.ofNat 32 (w % 2 ^ nbits)

/-- The instruction the decoder reads from a table word (log 10). A micro-word has no bytes and no byte order
(20_memory.md R48): bit k of `w` is bit k of the packed form. -/
def decodeTableWord (nbits w : Nat) : Option Instr := primaryRow (tableWord nbits w)

end Sys2Proof
end

