-- ==== Sys2Proof/Config.lean ====
section
/-! DEFINITION. What is fixed for a run (spec 00_scope.md R6, 10_state.md R33): the clock-mode and pulse constants, the
B-constant patterns, the reset parameters; and the free values the spec leaves open. -/

namespace Sys2Proof

/-- The four clock modes (40_clock_model.md R90), an enumeration (R95). -/
inductive ClockMode where
  | off | cl1 | cl2 | cl3
  deriving DecidableEq, Repr, Inhabited

/-- The pulse identities; `none` fills an unused slot (40_clock_model.md R91). -/
inductive Pulse where
  | none | p1 | p2 | p3
  deriving DecidableEq, Repr

/-- Parameter BC_10, any 16-bit value (41_b_constant.md R128, log 6). -/
opaque Config.bc10 : Word
/-- Parameter BC_12, any 16-bit value (41_b_constant.md R128, log 6). -/
opaque Config.bc12 : Word
/-- Parameter BC_13, any 16-bit value (41_b_constant.md R128, log 6). -/
opaque Config.bc13 : Word
/-- Parameter BC_15, any 16-bit value (41_b_constant.md R128, log 6). -/
opaque Config.bc15 : Word
/-- Parameter BC_17, any 16-bit value (41_b_constant.md R128, log 6). -/
opaque Config.bc17 : Word
/-- Which of the 65535 nonzero 16-bit values BC_14_RUN is, counted from 0 (41_b_constant.md R128, log 6). -/
opaque Config.bc14RunIndex : Fin 65535

/-- Parameter BC_14_RUN: any nonzero 16-bit value, since the index is free (41_b_constant.md R123, R128). -/
def Config.bc14Run : Word := BitVec.ofNat 16 (Config.bc14RunIndex.val + 1)

/-- What DISPLAY_SRC may look at: the state after sub-step S6 and the input ports (00_scope.md R6,
45_micro_cycle_engine.md R219), with the number of the draw, so that every cycle's draw is a fresh one. -/
structure DisplayInputs where
  draw    : Nat
  mode    : ClockMode
  cw      : MicroWord
  ptr     : MicroAddr
  ptrBuf  : MicroAddr
  ptrPrev : MicroAddr
  but     : Byte
  butNext : Byte
  sw      : Bool
  sclk    : Bool
  disp    : Word
  b       : Word
  d       : Word
  busRd   : Word
  unibus  : Word
  carryIn : Bool
  deriving DecidableEq, Repr

/-- Parameter DISPLAY_SRC, the free value latched into `disp` (45_micro_cycle_engine.md R219, log 7). -/
opaque Config.displaySrc : DisplayInputs → Word

/-- The reset values the document does not state, and SCLK (00_scope.md R6, 70_reset_and_hazards.md R270); the
defaults are the spec's (log 2). -/
structure ResetParams where
  ptrBuf  : MicroAddr := 0
  ptrPrev : MicroAddr := 0
  butNext : Byte := 0
  sw      : Bool := false
  sclk    : Bool := false
  disp    : Word := 0
  b       : Word := 0
  d       : Word := 0
  deriving DecidableEq, Repr

end Sys2Proof
end

