-- ==== Sys2Proof/Machine/Rom.lean ====
section
/-! DEFINITION. The one memory of the block, the micro-ROM (20_memory.md R40, R41), held as a list of address and
micro-word pairs in one canonical form: addresses strictly rising and below 256, unlisted addresses Unimplemented. -/

namespace Sys2Proof.Machine

/-- The micro-ROM. The addressable unit is one whole micro-word and a micro-word has no bytes (20_memory.md R40,
R48); an address that is not listed is an Unimplemented entry (R41, log 4). -/
abbrev Memory := List (Nat × MicroWord)

/-- The entry at an address: `none` is Unimplemented. -/
def Memory.read : Memory → Nat → Option MicroWord
  | [], _ => none
  | (k, w) :: m, a => if k = a then some w else Memory.read m a

/-- The canonical form from address `lo` on. -/
def Memory.wfFrom : Nat → Memory → Bool
  | _, [] => true
  | lo, (k, _) :: m => decide (lo ≤ k) && decide (k < 256) && Memory.wfFrom (k + 1) m

/-- The canonical form: strictly rising addresses, each in 0..255. No listed entry equals what an unlisted address
reads as, because a listed entry is implemented. -/
def Memory.wf (m : Memory) : Bool := Memory.wfFrom 0 m

/-- Authoring the table: put an entry at an address. It belongs to loading a program from outside (20_memory.md R46:
"loaded once at process start"); no instruction and no step of the machine calls it (log 1). -/
def Memory.load : Memory → Nat → Option MicroWord → Memory
  | [], _, none => []
  | [], a, some w => [(a, w)]
  | (k, v) :: m, a, e =>
    if a < k then
      match e with
      | none => (k, v) :: m
      | some w => (a, w) :: (k, v) :: m
    else if a = k then
      match e with
      | none => m
      | some w => (a, w) :: m
    else (k, v) :: Memory.load m a e

end Sys2Proof.Machine
end

