-- ==== Sys2Proof/Machine/State.lean ====
section
/-! DEFINITION. The machine state (10_state.md R10 to R23, R28, R30, R31), the abort record (60_exceptions.md R246), the
reasons a step stops, and the state after reset. -/

namespace Sys2Proof.Machine

/-- The four fatal errors, a closed type with no numeric codes (60_exceptions.md R240). -/
inductive AbortKind where
  | unimplementedMicroaddress | unspecifiedSelector | invalidSelector | impossibleClockState
  deriving DecidableEq, Repr

/-- The component an abort names (60_exceptions.md R246). -/
inductive Component where
  | microRom | bConstantGenerator | bMux | dMux | branchEvaluator | microCycleEngine
  deriving DecidableEq, Repr

/-- What a component raises: everything of the report but the address, which `raise` adds (60_exceptions.md R246). -/
structure AbortCause where
  kind      : AbortKind
  component : Component
  value     : Nat
  deriving DecidableEq, Repr

/-- The report of an abort: kind, component, value, and `ptr` at the moment of the raise (60_exceptions.md R246). -/
structure AbortRecord where
  kind      : AbortKind
  component : Component
  value     : Nat
  address   : MicroAddr
  deriving DecidableEq, Repr

/-- A component's tagged result: "either a concrete value or a distinguished" outcome (60_exceptions.md R257). -/
inductive Result (α : Type) where
  | value  (v : α)
  | raised (c : AbortCause)
  deriving DecidableEq, Repr

/-- An evaluation of one of the three combinational outputs (10_state.md R30). An evaluation of DMUX_OUT carries the one
value of each input port that it sees, "a fresh draw at every evaluation of the D-mux" (R28; 43_d_mux.md R158). -/
inductive Evaluation where
  | bcOut
  | bmuxOut
  | dmuxOut (busRd unibus : Word) (carryIn : Bool)
  deriving DecidableEq, Repr

/-- What the environment may do at the boundary between two cycles that the block can see (10_state.md R28, R31, log 8). -/
inductive EnvMove where
  /-- Invoke CYCLE: one whole machine cycle, indivisible. -/
  | cycle
  /-- Write the switch flip-flop (port SWITCH_IN). -/
  | writeSwitch (pressed : Bool)
  /-- Put values on BUS_RD, UNIBUS and CARRY_IN. -/
  | drive (busRd unibus : Word) (carryIn : Bool)
  /-- Evaluate one of the three outputs. -/
  | evaluate (e : Evaluation)
  deriving DecidableEq, Repr

/-- The machine state. `mode` to `fault` are the spec's elements (10_state.md R10, R23); `rom` is the read-only table
(R33, log 1); `busRd` to `dmuxOut` are the ports (R28, R30, log 9); `moves` and `draws` are the model's own (log 8, log 7). -/
structure State where
  mode    : ClockMode
  cw      : MicroWord
  ptr     : MicroAddr
  ptrBuf  : MicroAddr
  ptrPrev : MicroAddr
  but     : Byte
  butNext : Byte
  sw      : Bool
  sclk    : Bool
  disp    : Word
  b       : Word
  d       : Word
  fault   : Option AbortRecord
  rom     : Memory
  busRd   : Word
  unibus  : Word
  carryIn : Bool
  bcOut   : Word
  bmuxOut : Word
  dmuxOut : Word
  moves   : List EnvMove
  draws   : Nat
  deriving DecidableEq, Repr

/-- Why a step stops with a fault. -/
inductive Fault where
  /-- The run has aborted: the `fault` element holds record `r`, "once it is not `none` no rule is enabled"
  (10_state.md R23, 60_exceptions.md R245, log 5). Raised by `step` and by every meaning at a state whose `fault` is set,
  and by nothing else. Safe: the hardware has no transition there either. -/
  | runEnded (r : AbortRecord)
  deriving DecidableEq, Repr

/-- Why a step is refused. -/
inductive Refusal where
  /-- The instruction has no meaning yet; raised by an arm of `exec` only. Safe. -/
  | notModelled (mnemonic : String)
  /-- A machine cycle invoked with mode OFF: "refused: the model gives it no step and no meaning"
  (45_micro_cycle_engine.md R222, log 17). Raised by the machine cycle only. Safe: the document gives OFF no behaviour. -/
  | cycleInOff
  deriving DecidableEq, Repr

/-- What the environment may read, and nothing else: the two other pointers beside the current one, the mode, the display
latch, and the micro-ROM, to which it has "read access for display" (10_state.md R29). The abort record is reported when
the run stops, by `Fault.runEnded`. -/
structure ReadPorts where
  ptr     : MicroAddr
  ptrBuf  : MicroAddr
  ptrPrev : MicroAddr
  mode    : ClockMode
  disp    : Word
  rom     : Memory
  deriving DecidableEq, Repr

/-- The state right after reset, with nothing in the ROM (70_reset_and_hazards.md R270, R271): mode CL1, pointer 0,
live latch 0, the defaults of the parameters (log 2), and, because `ROM[0]` is unimplemented, the abort that reset then
raises (R271, log 3). `State.resetWith` is the same for any parameters and any ROM. -/
def State.reset : State where
  mode    := .cl1
  cw      := { prog := 0, brf := 0, bcs := 0, bms := 0, dms := 0, clkf := 0 }
  ptr     := 0
  ptrBuf  := 0
  ptrPrev := 0
  but     := 0
  butNext := 0
  sw      := false
  sclk    := false
  disp    := 0
  b       := 0
  d       := 0
  fault   := some ⟨.unimplementedMicroaddress, .microRom, 0, 0⟩
  rom     := []
  busRd   := 0
  unibus  := 0
  carryIn := false
  bcOut   := 0
  bmuxOut := 0
  dmuxOut := 0
  moves   := []
  draws   := 0

end Sys2Proof.Machine
end

