-- ==== Sys2Proof/Machine/Flags.lean ====
section
/-! DEFINITION. The one-bit conditions of the block (10_state.md section 5, R32; 45_micro_cycle_engine.md R227 e, f). No row
writes a flag: the micro-word's status-word field has no behaviour (30_encoding.md R63). -/

namespace Sys2Proof.Machine

/-- `b2n`: 1 if the condition holds, else 0 (00_scope.md section 6). -/
def b2n (c : Bool) : BitVec 1 := BitVec.ofBool c

/-- The zero-detect on D: all 16 bits zero; computed when asked for, not latched (10_state.md R32). -/
def dIsZero (d : Word) : Bool := d == 0

end Sys2Proof.Machine
end

