-- ==== Sys2Proof/Machine/Operands.lean ====
section
/-! DEFINITION. The operand forms of the block (45_micro_cycle_engine.md R227 a to d): the OR that forms an address, byte
selection and concatenation, replication of one bit, the shift right by one with a bit inserted. -/

namespace Sys2Proof.Machine

/-- Low byte of a 16-bit value, bits 7..0 (20_memory.md R48). -/
def lowByte (v : Word) : Byte := v.extractLsb' 0 8

/-- High byte of a 16-bit value, bits 15..8 (20_memory.md R48). -/
def highByte (v : Word) : Byte := v.extractLsb' 8 8

/-- `hi ++ lo`: `hi` in bits 15..8, `lo` in bits 7..0 (42_b_mux.md R140). -/
def joinBytes (hi lo : Byte) : Word := (hi.setWidth 16 <<< 8) ||| lo.setWidth 16

/-- `sext_8(b[7])`: 0xFF if bit 7 of the 16-bit value is set, else 0x00 (42_b_mux.md R137). -/
def signByte (b : Word) : Byte := if b.getLsbD 7 then 0xFF else 0x00

/-- `(ci << 15) | (d >> 1)` with the logical shift: bit 15 is the carry-in, bits 14..0 are `d[15:1]`, `d[0]` is dropped
(43_d_mux.md R154). -/
def shiftRightWithCarry (ci : Bool) (d : Word) : Word := ((BitVec.ofBool ci).setWidth 16 <<< 15) ||| (d >>> 1)

/-- `PROG | but`: a bitwise OR of two 8-bit values, no carry and no wrap (45_micro_cycle_engine.md R214). -/
def formAddress (prog : MicroAddr) (but : Byte) : MicroAddr := prog ||| but

/-- The micro-address the next register-transfer step forms (45_micro_cycle_engine.md R213, S2). -/
def State.nextAddress (s : State) : MicroAddr := formAddress s.cw.prog s.but

/-- What the environment reads (10_state.md R29). -/
def State.readPorts (s : State) : ReadPorts where
  ptr     := s.ptr
  ptrBuf  := s.ptrBuf
  ptrPrev := s.ptrPrev
  mode    := s.mode
  disp    := s.disp
  rom     := s.rom

/-- Everything DISPLAY_SRC may look at (45_micro_cycle_engine.md R219). -/
def State.displayInputs (s : State) : DisplayInputs where
  draw    := s.draws
  mode    := s.mode
  cw      := s.cw
  ptr     := s.ptr
  ptrBuf  := s.ptrBuf
  ptrPrev := s.ptrPrev
  but     := s.but
  butNext := s.butNext
  sw      := s.sw
  sclk    := s.sclk
  disp    := s.disp
  b       := s.b
  d       := s.d
  busRd   := s.busRd
  unibus  := s.unibus
  carryIn := s.carryIn

end Sys2Proof.Machine
end

