-- ==== Sys2Proof/Machine/Ops.lean ====
section
/-! DEFINITION. The named operations over the state: the fetch, the latches and ports (one operation for each way a rule
writes a state element), taking an abort, and sequencing. -/

namespace Sys2Proof.Machine

/-- The outcome of a meaning or a step. -/
abbrev Outcome := Host.Outcome State Fault Refusal

/-- `RomFetch(a)`: the entry's fields, or UnimplementedMicroaddress; no other failure exists and nothing is written
(20_memory.md R43, R47). -/
def romFetch (rom : Memory) (a : MicroAddr) : Result MicroWord :=
  match Memory.read rom a.toNat with
  | some w => .value w
  | none => .raised ⟨.unimplementedMicroaddress, .microRom, a.toNat⟩

/-- TAKING AN ABORT, the one shared operation: the `fault` element takes the record, with `ptr` as its address; nothing
else is written, since the sub-steps before the raise have taken effect and no later one does (60_exceptions.md R246,
R247, log 5). There is no handler, no saved state and no return (R248). -/
def raise (c : AbortCause) (s : State) : State :=
  { s with fault := some ⟨c.kind, c.component, c.value, s.ptr⟩ }

/-- S1 to S3 of the register-transfer step: the previous pointer takes the current one, the current and the buffered
pointer take the new address (45_micro_cycle_engine.md R213). -/
def latchPointers (a : MicroAddr) (s : State) : State := { s with ptrPrev := s.ptr, ptr := a, ptrBuf := a }

/-- S4: the fetched word becomes the current micro-word (45_micro_cycle_engine.md R213). -/
def latchWord (w : MicroWord) (s : State) : State := { s with cw := w }

/-- S5: the in-flux latch moves into the live latch (45_micro_cycle_engine.md R213). -/
def advanceBranch (s : State) : State := { s with but := s.butNext }

/-- S6: the in-flux latch takes a freshly evaluated branch value (45_micro_cycle_engine.md R213). -/
def latchBranch (e : Byte) (s : State) : State := { s with butNext := e }

/-- S7: the display latch takes the free value DISPLAY_SRC (45_micro_cycle_engine.md R219, log 7). -/
def latchDisplay (s : State) : State := { s with disp := Config.displaySrc s.displayInputs, draws := s.draws + 1 }

/-- Step 3: the clock mode takes its next value (45_micro_cycle_engine.md R217). -/
def setMode (m : ClockMode) (s : State) : State := { s with mode := m }

/-- The environment writes the switch flip-flop; the block never clears it (10_state.md R18). -/
def writeSwitch (pressed : Bool) (s : State) : State := { s with sw := pressed }

/-- The environment changes the values on the input ports (10_state.md R28, R31). -/
def driveInputs (busRd unibus : Word) (carryIn : Bool) (s : State) : State :=
  { s with busRd := busRd, unibus := unibus, carryIn := carryIn }

/-- The constant generator's value appears on BC_OUT (10_state.md R30). -/
def setBcOut (v : Word) (s : State) : State := { s with bcOut := v }

/-- The low byte of BMUX_OUT is selected; neither half's selector influences the other half (42_b_mux.md R140). -/
def setBmuxLow (lo : Byte) (s : State) : State := { s with bmuxOut := joinBytes (highByte s.bmuxOut) lo }

/-- The high byte of BMUX_OUT is selected (42_b_mux.md R140). -/
def setBmuxHigh (hi : Byte) (s : State) : State := { s with bmuxOut := joinBytes hi (lowByte s.bmuxOut) }

/-- The D-mux's value appears on DMUX_OUT; `D` is not written (43_d_mux.md R150, R157). -/
def setDmuxOut (v : Word) (s : State) : State := { s with dmuxOut := v }

/-- The environment's schedule of moves becomes `ms` (log 8). -/
def setMoves (ms : List EnvMove) (s : State) : State := { s with moves := ms }

/-- No rule is enabled once the run has aborted (10_state.md R23, 60_exceptions.md R245, log 16). -/
def whenRunning (s : State) (k : State → Outcome) : Outcome :=
  match s.fault with
  | none => k s
  | some r => .fault (.runEnded r)

/-- A component's result takes effect: its value by `k`, or its abort. -/
def settle {α : Type} (r : Result α) (k : α → State → State) (s : State) : Outcome :=
  match r with
  | .value v => .next (k v s)
  | .raised c => .next (raise c s)

/-- One rule after another: "no later line runs" once a rule has raised (00_scope.md section 6, `raise`). -/
def andThen (o : Outcome) (k : State → Outcome) : Outcome :=
  match o with
  | .next s =>
    match s.fault with
    | none => k s
    | some _ => .next s
  | .fault r => .fault r
  | .refused r => .refused r

/-- `ClockOk(w)` (20_memory.md R53). -/
def clockOk (w : MicroWord) : Bool := decide (1 ≤ w.clkf) && decide (w.clkf ≤ 6)

/-- `BranchOk(w)` (20_memory.md R53). -/
def branchOk (w : MicroWord) : Bool := [0o00, 0o06, 0o12, 0o24].contains w.brf

/-- `DatapathClean(w)` (20_memory.md R53). -/
def datapathClean (w : MicroWord) : Bool :=
  [0, 1, 2, 0o10, 0o12, 0o13, 0o14, 0o15, 0o17].contains w.bcs && decide (w.bms ≤ 15) && decide (w.dms ≤ 3)

end Sys2Proof.Machine
end

