-- ==== Sys2Proof/Machine/BConstant.lean ====
section
/-! DEFINITION. The B-constant generator and the rows BC.00 to BC.17 (41_b_constant.md). -/

namespace Sys2Proof.Machine

/-- `BConst(s, k)`: the constant of selector `n` under the single-clock-mode flag `k` (41_b_constant.md R110, R127). -/
def bConst (n : Nat) (k : Bool) : Result Word :=
  match n with
  | 0o00 => .value 0x0000
  | 0o01 => .value 0x0001
  | 0o02 => .value 0x0002
  | 0o03 => .raised ⟨.unspecifiedSelector, .bConstantGenerator, n⟩
  | 0o04 => .raised ⟨.invalidSelector, .bConstantGenerator, n⟩
  | 0o05 => .raised ⟨.invalidSelector, .bConstantGenerator, n⟩
  | 0o06 => .raised ⟨.invalidSelector, .bConstantGenerator, n⟩
  | 0o07 => .raised ⟨.unspecifiedSelector, .bConstantGenerator, n⟩
  | 0o10 => .value Config.bc10
  | 0o11 => .raised ⟨.unspecifiedSelector, .bConstantGenerator, n⟩
  | 0o12 => .value Config.bc12
  | 0o13 => .value Config.bc13
  | 0o14 => .value (if k then 0x0000 else Config.bc14Run)
  | 0o15 => .value Config.bc15
  | 0o16 => .raised ⟨.unspecifiedSelector, .bConstantGenerator, n⟩
  | 0o17 => .value Config.bc17
  | _ => .raised ⟨.invalidSelector, .bConstantGenerator, n⟩

/-- An evaluation of the generator with selector `n`: BC_OUT takes its value, or it aborts (10_state.md R30,
41_b_constant.md R129). -/
def evalConstant (n : Nat) (s : State) : Outcome := whenRunning s fun s => settle (bConst n s.sclk) setBcOut s

/-- BC.00: BC_OUT = 0 (41_b_constant.md R111). -/
def execBc00 (s : State) : Outcome := evalConstant 0o00 s

/-- BC.01: BC_OUT = 1 (41_b_constant.md R112). -/
def execBc01 (s : State) : Outcome := evalConstant 0o01 s

/-- BC.02: BC_OUT = 2 (41_b_constant.md R113). -/
def execBc02 (s : State) : Outcome := evalConstant 0o02 s

/-- BC.03: raises UnspecifiedSelector(BConstantGenerator) (41_b_constant.md R114). -/
def execBc03 (s : State) : Outcome := evalConstant 0o03 s

/-- BC.04: raises InvalidSelector(BConstantGenerator) (41_b_constant.md R115). -/
def execBc04 (s : State) : Outcome := evalConstant 0o04 s

/-- BC.05: raises InvalidSelector(BConstantGenerator) (41_b_constant.md R116). -/
def execBc05 (s : State) : Outcome := evalConstant 0o05 s

/-- BC.06: raises InvalidSelector(BConstantGenerator) (41_b_constant.md R117). -/
def execBc06 (s : State) : Outcome := evalConstant 0o06 s

/-- BC.07: raises UnspecifiedSelector(BConstantGenerator) (41_b_constant.md R118). -/
def execBc07 (s : State) : Outcome := evalConstant 0o07 s

/-- BC.10: BC_OUT = BC_10 (41_b_constant.md R119). -/
def execBc10 (s : State) : Outcome := evalConstant 0o10 s

/-- BC.11: raises UnspecifiedSelector(BConstantGenerator) (41_b_constant.md R120). -/
def execBc11 (s : State) : Outcome := evalConstant 0o11 s

/-- BC.12: BC_OUT = BC_12 (41_b_constant.md R121). -/
def execBc12 (s : State) : Outcome := evalConstant 0o12 s

/-- BC.13: BC_OUT = BC_13 (41_b_constant.md R122). -/
def execBc13 (s : State) : Outcome := evalConstant 0o13 s

/-- BC.14: BC_OUT = 0 if sclk else BC_14_RUN (41_b_constant.md R123). -/
def execBc14 (s : State) : Outcome := evalConstant 0o14 s

/-- BC.15: BC_OUT = BC_15 (41_b_constant.md R124). -/
def execBc15 (s : State) : Outcome := evalConstant 0o15 s

/-- BC.16: raises UnspecifiedSelector(BConstantGenerator) (41_b_constant.md R125). -/
def execBc16 (s : State) : Outcome := evalConstant 0o16 s

/-- BC.17: BC_OUT = BC_17 (41_b_constant.md R126). -/
def execBc17 (s : State) : Outcome := evalConstant 0o17 s

end Sys2Proof.Machine
end

