-- ==== Sys2Proof/Machine/BMux.lean ====
section
/-! DEFINITION. The B-mux and the rows BML.0 to BML.3, BMH.0 to BMH.3 (42_b_mux.md). The constant operand of a half is the
value the constant generator last put on BC_OUT: an evaluation of BMUX_OUT evaluates the generator first (R142, log 14). -/

namespace Sys2Proof.Machine

/-- The low byte, by selector bits 1..0 (42_b_mux.md R130). -/
def bMuxLow (sel : BitVec 2) (b c : Word) : Byte :=
  match sel with
  | 0 => lowByte b
  | 1 => lowByte b
  | 2 => highByte b
  | 3 => lowByte c

/-- The high byte, by selector bits 3..2 (42_b_mux.md R130). -/
def bMuxHigh (sel : BitVec 2) (b c : Word) : Byte :=
  match sel with
  | 0 => highByte b
  | 1 => signByte b
  | 2 => lowByte b
  | 3 => highByte c

/-- The range check of the whole selector, before the split into a low-byte and a high-byte selector
(42_b_mux.md R131, 30_encoding.md R65). -/
def bMuxSplit (n : Nat) : Result (BitVec 2 × BitVec 2) :=
  if n < 16 then .value (BitVec.ofNat 2 n, BitVec.ofNat 2 (n / 4))
  else .raised ⟨.invalidSelector, .bMux, n⟩

/-- `BMux(s, b, c)`: the pure function of the contract (42_b_mux.md R130, R140). -/
def bMux (n : Nat) (b c : Word) : Result Word :=
  match bMuxSplit n with
  | .value (lo, hi) => .value (joinBytes (bMuxHigh hi b c) (bMuxLow lo b c))
  | .raised e => .raised e

/-- The low half of an evaluation of the B-mux. -/
def evalBmuxLow (sel : BitVec 2) (s : State) : Outcome :=
  whenRunning s fun s => .next (setBmuxLow (bMuxLow sel s.b s.bcOut) s)

/-- The high half of an evaluation of the B-mux. -/
def evalBmuxHigh (sel : BitVec 2) (s : State) : Outcome :=
  whenRunning s fun s => .next (setBmuxHigh (bMuxHigh sel s.b s.bcOut) s)

/-- BML.0: low byte = B[7:0] (42_b_mux.md R132). -/
def execBml0 (s : State) : Outcome := evalBmuxLow 0 s

/-- BML.1: low byte = B[7:0] (same as BML.0) (42_b_mux.md R133). -/
def execBml1 (s : State) : Outcome := evalBmuxLow 1 s

/-- BML.2: low byte = B[15:8] (42_b_mux.md R134). -/
def execBml2 (s : State) : Outcome := evalBmuxLow 2 s

/-- BML.3: low byte = constant[7:0] (42_b_mux.md R135). -/
def execBml3 (s : State) : Outcome := evalBmuxLow 3 s

/-- BMH.0: high byte = B[15:8] (42_b_mux.md R136). -/
def execBmh0 (s : State) : Outcome := evalBmuxHigh 0 s

/-- BMH.1: high byte = 0xFF if B[7] else 0x00 (sign of low byte) (42_b_mux.md R137). -/
def execBmh1 (s : State) : Outcome := evalBmuxHigh 1 s

/-- BMH.2: high byte = B[7:0] (42_b_mux.md R138). -/
def execBmh2 (s : State) : Outcome := evalBmuxHigh 2 s

/-- BMH.3: high byte = constant[15:8] (42_b_mux.md R139). -/
def execBmh3 (s : State) : Outcome := evalBmuxHigh 3 s

end Sys2Proof.Machine
end

