-- ==== Sys2Proof/Machine/Branch.lean ====
section
/-! DEFINITION. The branch-control evaluator and the rows BUT.00 to BUT.37 (44_branch_evaluator.md). -/

namespace Sys2Proof.Machine

/-- Bank A at index `i` of branch field `f` (44_branch_evaluator.md R163). -/
def muxA (f i : Nat) (sw dz : Bool) : Result (BitVec 1) :=
  match i with
  | 0o00 => .value 0
  | 0o06 => .value (b2n sw)
  | 0o12 => .value (b2n dz)
  | _ => .raised ⟨.unspecifiedSelector, .branchEvaluator, f⟩

/-- Bank B at index `i` of branch field `f` (44_branch_evaluator.md R164). -/
def muxB (f i : Nat) : Result (BitVec 1) :=
  match i with
  | 0o04 => .value 0
  | 0o03 => .raised ⟨.invalidSelector, .branchEvaluator, f⟩
  | _ => .raised ⟨.unspecifiedSelector, .branchEvaluator, f⟩

/-- The second bank, the same table as bank B (44_branch_evaluator.md R165, log 15). -/
def muxB2 (f i : Nat) : Result (BitVec 1) :=
  match i with
  | 0o04 => .value 0
  | 0o03 => .raised ⟨.invalidSelector, .branchEvaluator, f⟩
  | _ => .raised ⟨.unspecifiedSelector, .branchEvaluator, f⟩

/-- The branch-control byte: the first bit in bit 0, the second in bit 1, bits 7..2 zero (44_branch_evaluator.md R166). -/
def branchByte (bit1 bit0 : BitVec 1) : Byte := bit0.setWidth 8 ||| (bit1.setWidth 8 <<< 1)

/-- `BranchEval(f, sw, dz)`: range check, then bank A or bank B and its second bank (44_branch_evaluator.md R160 to R162,
R167). -/
def branchEval (f : Nat) (sw dz : Bool) : Result Byte :=
  if f < 0o40 then
    if f / 16 = 0 then
      match muxA f (f % 16) sw dz with
      | .value bit0 => .value (branchByte 0 bit0)
      | .raised c => .raised c
    else
      match muxB f (f % 16) with
      | .value bit0 =>
        match muxB2 f (f % 16) with
        | .value bit1 => .value (branchByte bit1 bit0)
        | .raised c => .raised c
      | .raised c => .raised c
  else .raised ⟨.invalidSelector, .branchEvaluator, f⟩

/-- An evaluation of branch field `f` against the live conditions of this moment; the in-flux latch takes the result
(44_branch_evaluator.md R169, 45_micro_cycle_engine.md R213 S6). -/
def evalBranch (f : Nat) (s : State) : Outcome :=
  whenRunning s fun s => settle (branchEval f s.sw (dIsZero s.d)) latchBranch s

/-- BUT.00: bank A index 00: branch value 0 (44_branch_evaluator.md R170). -/
def execBut00 (s : State) : Outcome := evalBranch 0o00 s

/-- BUT.01: bank A index 01: raises UnspecifiedSelector(BranchEvaluator) (44_branch_evaluator.md R171). -/
def execBut01 (s : State) : Outcome := evalBranch 0o01 s

/-- BUT.02: bank A index 02: raises UnspecifiedSelector(BranchEvaluator) (44_branch_evaluator.md R172). -/
def execBut02 (s : State) : Outcome := evalBranch 0o02 s

/-- BUT.03: bank A index 03: raises UnspecifiedSelector(BranchEvaluator) (44_branch_evaluator.md R173). -/
def execBut03 (s : State) : Outcome := evalBranch 0o03 s

/-- BUT.04: bank A index 04: raises UnspecifiedSelector(BranchEvaluator) (44_branch_evaluator.md R174). -/
def execBut04 (s : State) : Outcome := evalBranch 0o04 s

/-- BUT.05: bank A index 05: raises UnspecifiedSelector(BranchEvaluator) (44_branch_evaluator.md R175). -/
def execBut05 (s : State) : Outcome := evalBranch 0o05 s

/-- BUT.06: bank A index 06: bit 0 = sw, bit 1 = 0 (44_branch_evaluator.md R176). -/
def execBut06 (s : State) : Outcome := evalBranch 0o06 s

/-- BUT.07: bank A index 07: raises UnspecifiedSelector(BranchEvaluator) (44_branch_evaluator.md R177). -/
def execBut07 (s : State) : Outcome := evalBranch 0o07 s

/-- BUT.10: bank A index 10: raises UnspecifiedSelector(BranchEvaluator) (44_branch_evaluator.md R178). -/
def execBut10 (s : State) : Outcome := evalBranch 0o10 s

/-- BUT.11: bank A index 11: raises UnspecifiedSelector(BranchEvaluator) (44_branch_evaluator.md R179). -/
def execBut11 (s : State) : Outcome := evalBranch 0o11 s

/-- BUT.12: bank A index 12: bit 0 = (D == 0), bit 1 = 0 (44_branch_evaluator.md R180). -/
def execBut12 (s : State) : Outcome := evalBranch 0o12 s

/-- BUT.13: bank A index 13: raises UnspecifiedSelector(BranchEvaluator) (44_branch_evaluator.md R181). -/
def execBut13 (s : State) : Outcome := evalBranch 0o13 s

/-- BUT.14: bank A index 14: raises UnspecifiedSelector(BranchEvaluator) (44_branch_evaluator.md R182). -/
def execBut14 (s : State) : Outcome := evalBranch 0o14 s

/-- BUT.15: bank A index 15: raises UnspecifiedSelector(BranchEvaluator) (44_branch_evaluator.md R183). -/
def execBut15 (s : State) : Outcome := evalBranch 0o15 s

/-- BUT.16: bank A index 16: raises UnspecifiedSelector(BranchEvaluator) (44_branch_evaluator.md R184). -/
def execBut16 (s : State) : Outcome := evalBranch 0o16 s

/-- BUT.17: bank A index 17: raises UnspecifiedSelector(BranchEvaluator) (44_branch_evaluator.md R185). -/
def execBut17 (s : State) : Outcome := evalBranch 0o17 s

/-- BUT.20: bank B index 00: raises UnspecifiedSelector(BranchEvaluator) (44_branch_evaluator.md R186). -/
def execBut20 (s : State) : Outcome := evalBranch 0o20 s

/-- BUT.21: bank B index 01: raises UnspecifiedSelector(BranchEvaluator) (44_branch_evaluator.md R187). -/
def execBut21 (s : State) : Outcome := evalBranch 0o21 s

/-- BUT.22: bank B index 02: raises UnspecifiedSelector(BranchEvaluator) (44_branch_evaluator.md R188). -/
def execBut22 (s : State) : Outcome := evalBranch 0o22 s

/-- BUT.23: bank B index 03: raises InvalidSelector(BranchEvaluator) (44_branch_evaluator.md R189). -/
def execBut23 (s : State) : Outcome := evalBranch 0o23 s

/-- BUT.24: bank B index 04: branch value 0 (the second bank by rule R165) (44_branch_evaluator.md R190). -/
def execBut24 (s : State) : Outcome := evalBranch 0o24 s

/-- BUT.25: bank B index 05: raises UnspecifiedSelector(BranchEvaluator) (44_branch_evaluator.md R191). -/
def execBut25 (s : State) : Outcome := evalBranch 0o25 s

/-- BUT.26: bank B index 06: raises UnspecifiedSelector(BranchEvaluator) (44_branch_evaluator.md R192). -/
def execBut26 (s : State) : Outcome := evalBranch 0o26 s

/-- BUT.27: bank B index 07: raises UnspecifiedSelector(BranchEvaluator) (44_branch_evaluator.md R193). -/
def execBut27 (s : State) : Outcome := evalBranch 0o27 s

/-- BUT.30: bank B index 10: raises UnspecifiedSelector(BranchEvaluator) (44_branch_evaluator.md R194). -/
def execBut30 (s : State) : Outcome := evalBranch 0o30 s

/-- BUT.31: bank B index 11: raises UnspecifiedSelector(BranchEvaluator) (44_branch_evaluator.md R195). -/
def execBut31 (s : State) : Outcome := evalBranch 0o31 s

/-- BUT.32: bank B index 12: raises UnspecifiedSelector(BranchEvaluator) (44_branch_evaluator.md R196). -/
def execBut32 (s : State) : Outcome := evalBranch 0o32 s

/-- BUT.33: bank B index 13: raises UnspecifiedSelector(BranchEvaluator) (44_branch_evaluator.md R197). -/
def execBut33 (s : State) : Outcome := evalBranch 0o33 s

/-- BUT.34: bank B index 14: raises UnspecifiedSelector(BranchEvaluator) (44_branch_evaluator.md R198). -/
def execBut34 (s : State) : Outcome := evalBranch 0o34 s

/-- BUT.35: bank B index 15: raises UnspecifiedSelector(BranchEvaluator) (44_branch_evaluator.md R199). -/
def execBut35 (s : State) : Outcome := evalBranch 0o35 s

/-- BUT.36: bank B index 16: raises UnspecifiedSelector(BranchEvaluator) (44_branch_evaluator.md R200). -/
def execBut36 (s : State) : Outcome := evalBranch 0o36 s

/-- BUT.37: bank B index 17: raises UnspecifiedSelector(BranchEvaluator) (44_branch_evaluator.md R201). -/
def execBut37 (s : State) : Outcome := evalBranch 0o37 s

end Sys2Proof.Machine
end

