-- ==== Sys2Proof/Machine/Clock.lean ====
section
/-! DEFINITION. The clock model: pulse tables, the due-predicate, and the rows CLK.0 to CLK.7 (40_clock_model.md). -/

namespace Sys2Proof.Machine

/-- `Pulse(m, i)` for slots 0 and 1 (40_clock_model.md R92, R93, R94). -/
def pulseSlots : ClockMode → List Pulse
  | .off => [.none, .none]
  | .cl1 => [.p1, .none]
  | .cl2 => [.p2, .none]
  | .cl3 => [.p2, .p3]

/-- `PulseCount(m)` (40_clock_model.md R92, R93, R94). -/
def pulseCount : ClockMode → Nat
  | .off => 0
  | .cl1 => 1
  | .cl2 => 1
  | .cl3 => 2

/-- The pulses a cycle goes through: the positions below the pulse count (45_micro_cycle_engine.md R212). -/
def activePulses (m : ClockMode) : List Pulse := (pulseSlots m).take (pulseCount m)

/-- The due-predicate (40_clock_model.md R96). -/
def due (p : Pulse) (m : ClockMode) : Bool :=
  match p with
  | .none => false
  | .p1 => true
  | .p2 => m != .cl3
  | .p3 => true

/-- `ClockSelect(c)`: the next clock mode, or ImpossibleClockState for any other value (40_clock_model.md R98). -/
def clockSelect (c : Nat) : Result ClockMode :=
  match c with
  | 1 => .value .cl1
  | 2 => .value .cl1
  | 3 => .value .cl2
  | 4 => .value .cl2
  | 5 => .value .cl3
  | 6 => .value .cl3
  | _ => .raised ⟨.impossibleClockState, .microCycleEngine, c⟩

/-- Step 3 with clock-field value `c` (45_micro_cycle_engine.md R217). -/
def evalClock (c : Nat) (s : State) : Outcome := whenRunning s (settle (clockSelect c) setMode)

/-- CLK.0: raises ImpossibleClockState (40_clock_model.md R99). -/
def execClk0 (s : State) : Outcome := evalClock 0 s

/-- CLK.1: next mode CL1 (40_clock_model.md R100). -/
def execClk1 (s : State) : Outcome := evalClock 1 s

/-- CLK.2: next mode CL1 (40_clock_model.md R101). -/
def execClk2 (s : State) : Outcome := evalClock 2 s

/-- CLK.3: next mode CL2 (40_clock_model.md R102). -/
def execClk3 (s : State) : Outcome := evalClock 3 s

/-- CLK.4: next mode CL2 (40_clock_model.md R103). -/
def execClk4 (s : State) : Outcome := evalClock 4 s

/-- CLK.5: next mode CL3 (40_clock_model.md R104). -/
def execClk5 (s : State) : Outcome := evalClock 5 s

/-- CLK.6: next mode CL3 (40_clock_model.md R105). -/
def execClk6 (s : State) : Outcome := evalClock 6 s

/-- CLK.7: raises ImpossibleClockState (40_clock_model.md R106). -/
def execClk7 (s : State) : Outcome := evalClock 7 s

end Sys2Proof.Machine
end

