-- ==== Sys2Proof/Machine/DMux.lean ====
section
/-! DEFINITION. The D-mux and the rows DM.0 to DM.3 (43_d_mux.md). -/

namespace Sys2Proof.Machine

/-- `DMux(s, r, u, d, ci)` (43_d_mux.md R150, R155); the carry-in is one bit (R156). -/
def dMux (n : Nat) (r u d : Word) (ci : Bool) : Result Word :=
  match n with
  | 0 => .value r
  | 1 => .value u
  | 2 => .value d
  | 3 => .value (shiftRightWithCarry ci d)
  | _ => .raised ⟨.invalidSelector, .dMux, n⟩

/-- An evaluation of the D-mux with selector `n`, on the ports' values and D as they are now (43_d_mux.md R157, R158). -/
def evalDmux (n : Nat) (s : State) : Outcome :=
  whenRunning s fun s => settle (dMux n s.busRd s.unibus s.d s.carryIn) setDmuxOut s

/-- DM.0: DMUX_OUT = BUS_RD (43_d_mux.md R151). -/
def execDm0 (s : State) : Outcome := evalDmux 0 s

/-- DM.1: DMUX_OUT = UNIBUS (43_d_mux.md R152). -/
def execDm1 (s : State) : Outcome := evalDmux 1 s

/-- DM.2: DMUX_OUT = D (43_d_mux.md R153). -/
def execDm2 (s : State) : Outcome := evalDmux 2 s

/-- DM.3: DMUX_OUT = (CARRY_IN << 15) | (D >> 1) (43_d_mux.md R154). -/
def execDm3 (s : State) : Outcome := evalDmux 3 s

end Sys2Proof.Machine
end

