-- ==== Sys2Proof/Machine/Sequence.lean ====
section
/-! DEFINITION. The rows IMPL.0, IMPL.1 (the fetch) and PROG (the next micro-address). -/

namespace Sys2Proof.Machine

/-- IMPL.0, the fetch of an unimplemented entry at the address in `ptr`: always UnimplementedMicroaddress
(20_memory.md R45, 60_exceptions.md R241). -/
def execImpl0 (s : State) : Outcome :=
  whenRunning s fun s => .next (raise ⟨.unimplementedMicroaddress, .microRom, s.ptr.toNat⟩ s)

/-- IMPL.1, the fetch at the address in `ptr`: the entry becomes the current micro-word; the flag is checked on every
read (20_memory.md R43, R44). -/
def execImpl1 (s : State) : Outcome := whenRunning s fun s => settle (romFetch s.rom s.ptr) latchWord s

/-- PROG: `ptr <- PROG | but` with the pointer copies, sub-steps S1 to S3 (45_micro_cycle_engine.md R213, R214). -/
def execProg (p : MicroAddr) (s : State) : Outcome :=
  whenRunning s fun s => .next (latchPointers (formAddress p s.but) s)

end Sys2Proof.Machine
end

