-- ==== Sys2Proof/Machine/Dispatch.lean ====
section
/-! DEFINITION. One arm per row of spec/opcode_table.json, each one direct call of the row's meaning. -/

namespace Sys2Proof.Machine

def exec (i : Instr) (s : State) : Host.Outcome State Fault Refusal :=
  match i with
  | .impl0 => Sys2Proof.Machine.execImpl0 s
  | .impl1 => Sys2Proof.Machine.execImpl1 s
  | .prog p => Sys2Proof.Machine.execProg p s
  | .bc00 => Sys2Proof.Machine.execBc00 s
  | .bc01 => Sys2Proof.Machine.execBc01 s
  | .bc02 => Sys2Proof.Machine.execBc02 s
  | .bc03 => Sys2Proof.Machine.execBc03 s
  | .bc04 => Sys2Proof.Machine.execBc04 s
  | .bc05 => Sys2Proof.Machine.execBc05 s
  | .bc06 => Sys2Proof.Machine.execBc06 s
  | .bc07 => Sys2Proof.Machine.execBc07 s
  | .bc10 => Sys2Proof.Machine.execBc10 s
  | .bc11 => Sys2Proof.Machine.execBc11 s
  | .bc12 => Sys2Proof.Machine.execBc12 s
  | .bc13 => Sys2Proof.Machine.execBc13 s
  | .bc14 => Sys2Proof.Machine.execBc14 s
  | .bc15 => Sys2Proof.Machine.execBc15 s
  | .bc16 => Sys2Proof.Machine.execBc16 s
  | .bc17 => Sys2Proof.Machine.execBc17 s
  | .bml0 => Sys2Proof.Machine.execBml0 s
  | .bml1 => Sys2Proof.Machine.execBml1 s
  | .bml2 => Sys2Proof.Machine.execBml2 s
  | .bml3 => Sys2Proof.Machine.execBml3 s
  | .bmh0 => Sys2Proof.Machine.execBmh0 s
  | .bmh1 => Sys2Proof.Machine.execBmh1 s
  | .bmh2 => Sys2Proof.Machine.execBmh2 s
  | .bmh3 => Sys2Proof.Machine.execBmh3 s
  | .dm0 => Sys2Proof.Machine.execDm0 s
  | .dm1 => Sys2Proof.Machine.execDm1 s
  | .dm2 => Sys2Proof.Machine.execDm2 s
  | .dm3 => Sys2Proof.Machine.execDm3 s
  | .but00 => Sys2Proof.Machine.execBut00 s
  | .but01 => Sys2Proof.Machine.execBut01 s
  | .but02 => Sys2Proof.Machine.execBut02 s
  | .but03 => Sys2Proof.Machine.execBut03 s
  | .but04 => Sys2Proof.Machine.execBut04 s
  | .but05 => Sys2Proof.Machine.execBut05 s
  | .but06 => Sys2Proof.Machine.execBut06 s
  | .but07 => Sys2Proof.Machine.execBut07 s
  | .but10 => Sys2Proof.Machine.execBut10 s
  | .but11 => Sys2Proof.Machine.execBut11 s
  | .but12 => Sys2Proof.Machine.execBut12 s
  | .but13 => Sys2Proof.Machine.execBut13 s
  | .but14 => Sys2Proof.Machine.execBut14 s
  | .but15 => Sys2Proof.Machine.execBut15 s
  | .but16 => Sys2Proof.Machine.execBut16 s
  | .but17 => Sys2Proof.Machine.execBut17 s
  | .but20 => Sys2Proof.Machine.execBut20 s
  | .but21 => Sys2Proof.Machine.execBut21 s
  | .but22 => Sys2Proof.Machine.execBut22 s
  | .but23 => Sys2Proof.Machine.execBut23 s
  | .but24 => Sys2Proof.Machine.execBut24 s
  | .but25 => Sys2Proof.Machine.execBut25 s
  | .but26 => Sys2Proof.Machine.execBut26 s
  | .but27 => Sys2Proof.Machine.execBut27 s
  | .but30 => Sys2Proof.Machine.execBut30 s
  | .but31 => Sys2Proof.Machine.execBut31 s
  | .but32 => Sys2Proof.Machine.execBut32 s
  | .but33 => Sys2Proof.Machine.execBut33 s
  | .but34 => Sys2Proof.Machine.execBut34 s
  | .but35 => Sys2Proof.Machine.execBut35 s
  | .but36 => Sys2Proof.Machine.execBut36 s
  | .but37 => Sys2Proof.Machine.execBut37 s
  | .clk0 => Sys2Proof.Machine.execClk0 s
  | .clk1 => Sys2Proof.Machine.execClk1 s
  | .clk2 => Sys2Proof.Machine.execClk2 s
  | .clk3 => Sys2Proof.Machine.execClk3 s
  | .clk4 => Sys2Proof.Machine.execClk4 s
  | .clk5 => Sys2Proof.Machine.execClk5 s
  | .clk6 => Sys2Proof.Machine.execClk6 s
  | .clk7 => Sys2Proof.Machine.execClk7 s

end Sys2Proof.Machine
end

