-- ==== Sys2Proof/Machine/Engine.lean ====
section
/-! DEFINITION. The micro-cycle engine: the register-transfer step, the pulses, the machine cycle
(45_micro_cycle_engine.md), and the environment's moves between cycles (10_state.md R30, R31). -/

namespace Sys2Proof.Machine

/-- Run the row a field selects; a value no row has goes to the consumer itself, whose range check raises. -/
def runRow (row : Option Instr) (consumer : State → Outcome) (s : State) : Outcome :=
  match row with
  | some i => exec i s
  | none => consumer s

/-- S1 to S4: form the address and latch the pointers (row PROG), then fetch (row IMPL) (45_micro_cycle_engine.md R213). -/
def fetchStep (s : State) : Outcome :=
  andThen (exec (.prog s.cw.prog) s) fun s => exec (implRow (Memory.read s.rom s.ptr.toNat)) s

/-- S5 and S6: the in-flux latch moves into the live one, then the branch field of the just-fetched word is evaluated
(row BUT) (45_micro_cycle_engine.md R213). -/
def branchStep (s : State) : Outcome :=
  runRow (butRow s.cw.brf) (evalBranch s.cw.brf) (advanceBranch s)

/-- The register-transfer step, S1 to S7 in order (45_micro_cycle_engine.md R213). -/
def rtStep (s : State) : Outcome :=
  andThen (fetchStep s) fun s => andThen (branchStep s) fun s => .next (latchDisplay s)

/-- One pulse of a cycle that began in mode `m`: the register-transfer step if it is due, otherwise nothing
(45_micro_cycle_engine.md R212, R216). -/
def pulseStep (m : ClockMode) (p : Pulse) (s : State) : Outcome :=
  if due p m then rtStep s else .next s

/-- Step 2: the pulse positions in order, under the mode held since the start of the cycle (R211, R212). -/
def runPulses (m : ClockMode) : List Pulse → State → Outcome
  | [], s => .next s
  | p :: ps, s => andThen (pulseStep m p s) (runPulses m ps)

/-- Step 3: the next clock mode, from the word that is current after the pulses (row CLK) (R217). -/
def selectStep (s : State) : Outcome := runRow (clkRow s.cw.clkf) (evalClock s.cw.clkf) s

/-- One machine cycle, port CYCLE: refused in OFF (R222), otherwise steps 1 to 3 (45_micro_cycle_engine.md R210). -/
def cycle (s : State) : Outcome :=
  whenRunning s fun s =>
    match s.mode with
    | .off => .refused .cycleInOff
    | m => andThen (runPulses m (activePulses m) s) selectStep

/-- An evaluation of BC_OUT: the row of the current word's BCS (10_state.md R30, 41_b_constant.md R129). -/
def evalBcOut (s : State) : Outcome := runRow (bcRow s.cw.bcs) (evalConstant s.cw.bcs) s

/-- The B-mux on the current word's BMS: the range check, then the two halves' rows (42_b_mux.md R131, R140). -/
def evalBmuxHalves (s : State) : Outcome :=
  match bMuxSplit s.cw.bms with
  | .value (lo, hi) =>
    andThen (runRow (bmlRow lo.toNat) (evalBmuxLow lo) s) (runRow (bmhRow hi.toNat) (evalBmuxHigh hi))
  | .raised c => .next (raise c s)

/-- An evaluation of BMUX_OUT: the constant generator first and always, then the B-mux (42_b_mux.md R142). -/
def evalBmuxOut (s : State) : Outcome := andThen (evalBcOut s) evalBmuxHalves

/-- An evaluation of DMUX_OUT: the row of the current word's DMS (43_d_mux.md R157). -/
def evalDmuxOut (s : State) : Outcome := runRow (dmRow s.cw.dms) (evalDmux s.cw.dms) s

/-- An evaluation of an output; that of DMUX_OUT with the values it finds on the input ports (10_state.md R28, R30). -/
def evaluate (e : Evaluation) (s : State) : Outcome :=
  match e with
  | .bcOut => evalBcOut s
  | .bmuxOut => evalBmuxOut s
  | .dmuxOut busRd unibus carryIn => evalDmuxOut (driveInputs busRd unibus carryIn s)

/-- One move of the environment (10_state.md R28, R31). -/
def envMove (e : EnvMove) (s : State) : Outcome :=
  match e with
  | .cycle => cycle s
  | .writeSwitch pressed => .next (writeSwitch pressed s)
  | .drive busRd unibus carryIn => .next (driveInputs busRd unibus carryIn s)
  | .evaluate e => evaluate e s

/-- The environment's next move: the first of its schedule; with the schedule used up the driver goes on invoking CYCLE
(45_micro_cycle_engine.md R210, log 8). -/
def State.nextMove (s : State) : EnvMove := s.moves.head?.getD .cycle

/-- What happens next: nothing once the run has aborted; else the environment's next move, which leaves the schedule
(10_state.md R23, R31, log 8). -/
def advance (s : State) : Outcome := whenRunning s fun s => envMove s.nextMove (setMoves s.moves.tail s)

/-- The move by which a row outside the machine cycle comes to run, with the values that stand on the input ports; for a
row of the cycle no move is scheduled, and the next one is a cycle (45_micro_cycle_engine.md R220). -/
def movesToRun (row : Option Instr) (s : State) : List EnvMove :=
  match row with
  | some i =>
    match i.field with
    | .bcs => [.evaluate .bcOut]
    | .bml => [.evaluate .bmuxOut]
    | .bmh => [.evaluate .bmuxOut]
    | .dms => [.evaluate (.dmuxOut s.busRd s.unibus s.carryIn)]
    | _ => []
  | none => []

/-- Load packed word `W` so that the next advance runs it (log 1): an implemented word becomes the current one, at the
current pointer and at the address it leads to, so that the cycle runs its PROG row, fetches it, and runs its BUT and CLK
rows; a word whose row is a data-path one is run by evaluating the output it selects. An unimplemented word goes where
the next fetch looks. The run is set going: no abort, no other scheduled move, and a mode in which a cycle runs. -/
def placeWord (W : PackedWord) (s : State) : State :=
  match unpack W with
  | none =>
    { s with
      rom := Memory.load s.rom s.nextAddress.toNat none
      fault := none
      moves := []
      mode := if s.mode = .off then .cl1 else s.mode }
  | some w =>
    { s with
      rom := Memory.load (Memory.load s.rom s.ptr.toNat (some w)) (formAddress w.prog s.but).toNat (some w)
      cw := w
      fault := none
      moves := movesToRun (primaryRow W) s
      mode := if s.mode = .off then .cl1 else s.mode }

end Sys2Proof.Machine
end

