-- ==== Sys2Proof/Machine/Step.lean ====
section
/-! DEFINITION. The step of the machine, and the loading of one word to be run. -/

namespace Sys2Proof.Machine

/-- One step: the environment's next move, a machine cycle among them (log 8). -/
def step (s : State) : Host.Outcome State Fault Refusal := advance s

/-- The state with a table word loaded so that the very next step runs it (log 1, log 10). -/
def State.withFetchWord (s : State) (nbits w : Nat) : State := placeWord (tableWord nbits w) s

end Sys2Proof.Machine
end

