-- ==== Sys2Proof/Machine/Reset.lean ====
section
/-! DEFINITION. Reset for any parameters and any ROM (70_reset_and_hazards.md R270 to R273). -/

namespace Sys2Proof.Machine

/-- The state as created, before the fetch of the reset word: mode CL1, pointer 0, live latch 0, the parameters'
values, and nothing latched in `cw` yet (70_reset_and_hazards.md R270, log 3). -/
def State.created (p : ResetParams) (rom : Memory) : State :=
  { State.reset with
    fault   := none
    rom     := rom
    ptrBuf  := p.ptrBuf
    ptrPrev := p.ptrPrev
    butNext := p.butNext
    sw      := p.sw
    sclk    := p.sclk
    disp    := p.disp
    b       := p.b
    d       := p.d }

/-- Reset: the word at address 0 is latched through the fetch contract, or UnimplementedMicroaddress(MicroROM, 0, 0) is
raised; no branch evaluation and no clock selection (70_reset_and_hazards.md R271, R272). -/
def State.resetWith (p : ResetParams) (rom : Memory) : State :=
  match romFetch rom 0 with
  | .value w => latchWord w (State.created p rom)
  | .raised c => raise c (State.created p rom)

end Sys2Proof.Machine
end

