-- ==== Sys2Proof/Safety.lean ====
section
/-! DEFINITION. What counts as a good state and a safe run, and the vocabulary of the claims: when a cycle is enabled, the
invariant of the machine, what two states share when a part of them is erased, what a program needs to run clean. -/

namespace Sys2Proof.Machine

/-- The next step is a machine cycle, and the cycle is enabled: no abort, mode not OFF, and CYCLE is the environment's
next move (45_micro_cycle_engine.md R210, log 8). -/
structure State.Ready (s : State) : Prop where
  running : s.fault = none
  on : s.mode ≠ .off
  invoked : s.nextMove = .cycle

/-- The invariant: the ROM keeps its canonical form; the mode is never OFF (10_state.md R11); the branch latches hold at
most two bits (R35); and while the run goes on the current word is the ROM's entry at the pointer, implemented (R24). -/
structure State.Inv (s : State) : Prop where
  romWf : Memory.wf s.rom = true
  modeOn : s.mode ≠ .off
  butBits : s.but.toNat < 4
  butNextBits : s.butNext.toNat < 4
  currentWord : s.fault = none → Memory.read s.rom s.ptr.toNat = some s.cw

/-- An outcome with its state, if it has one, rewritten. -/
def mapState (f : State → State) : Outcome → Outcome
  | .next s => .next (f s)
  | .fault r => .fault r
  | .refused r => .refused r

/-- Every entry of a ROM rewritten. -/
def Memory.mapWords (f : MicroWord → MicroWord) (m : Memory) : Memory := m.map fun e => (e.1, f e.2)

/-- The word without its uninterpreted fields (30_encoding.md R63). -/
def wordSansRest (w : MicroWord) : MicroWord := { w with rest := {} }

/-- The word without its data-path selectors (30_encoding.md R72). -/
def wordSansSelectors (w : MicroWord) : MicroWord := { w with bcs := 0, bms := 0, dms := 0 }

/-- The state without the uninterpreted fields of its words, and without the display latch, on which no claim may
depend (45_micro_cycle_engine.md R219). -/
def State.eraseRest (s : State) : State :=
  { s with cw := wordSansRest s.cw, rom := Memory.mapWords wordSansRest s.rom, disp := 0 }

/-- The state without the data path: selectors, constant condition, B, input ports, output ports, display latch. -/
def State.eraseDataPath (s : State) : State :=
  { s with
    cw := wordSansSelectors s.cw, rom := Memory.mapWords wordSansSelectors s.rom
    sclk := false, b := 0, busRd := 0, unibus := 0, carryIn := false
    bcOut := 0, bmuxOut := 0, dmuxOut := 0, disp := 0 }

/-- The state without the switch flip-flop and the display latch. -/
def State.eraseSwitch (s : State) : State := { s with sw := false, disp := 0 }

/-- A set of addresses a program may run in without an abort: each entry is implemented, satisfies ClockOk and BranchOk,
and leads only into the set, whether or not a branch is taken (20_memory.md R53, 70_reset_and_hazards.md R274). -/
def RunsClean (rom : Memory) (addresses : List MicroAddr) : Prop :=
  ∀ a ∈ addresses, ∃ w, Memory.read rom a.toNat = some w ∧ clockOk w = true ∧ branchOk w = true ∧
    w.prog ∈ addresses ∧ w.prog ||| 1 ∈ addresses

/-- The move evaluates no output. -/
def EnvMove.quiet : EnvMove → Bool
  | .evaluate _ => false
  | _ => true

/-- The state of a run that stays clean inside a set of addresses: no abort, a mode a cycle runs in, branch latches of at
most 1, the current word leading into a set that runs clean, and a schedule that evaluates no output unless the current
word and every word of the set are DatapathClean (20_memory.md R53). -/
structure State.Clean (addresses : List MicroAddr) (s : State) : Prop where
  running : s.fault = none
  on : s.mode ≠ .off
  butBit : s.but.toNat ≤ 1
  butNextBit : s.butNext.toNat ≤ 1
  leads : s.cw.prog ∈ addresses
  leadsTaken : s.cw.prog ||| 1 ∈ addresses
  runsClean : RunsClean s.rom addresses
  outputs : (∀ e ∈ s.moves, e.quiet = true) ∨
    (datapathClean s.cw = true ∧
      ∀ a ∈ addresses, ∀ w, Memory.read s.rom a.toNat = some w → datapathClean w = true)

/-- A safe run: however long it goes on, it answers a next state and no abort has occurred (60_exceptions.md R245). -/
def SafeRun (s : State) : Prop := ∀ n, ∃ t, Host.Core.run core n s = .next t ∧ t.fault = none

end Sys2Proof.Machine
end

