-- ==== Sys2Proof/Certificates/Slice0/Obligations.lean ====
section
/-! DEFINITION. What is claimed of the model, each claim a proposition about `exec`, `step`, the component functions or the
packing, for every state and operand that meets its hypotheses. -/

open Sys2Proof Sys2Proof.Machine

namespace Sys2Proof.Claims

/-- Row `i` is value `v` of BRF and aborts with kind `k`: how it is encoded, what running it does, and what a cycle that
fetches a word with that branch field does (the abort falls in sub-step S6, after S1 to S5 took effect). -/
def BranchRowAborts (i : Instr) (v : Nat) (k : AbortKind) : Prop :=
  (∀ W : PackedWord, W.getLsbD 31 = true → (W.extractLsb' 8 5).toNat = v → decodeField .brf W = .ok i) ∧
  (∀ s : State, s.fault = none → exec i s = .next { s with fault := some ⟨k, .branchEvaluator, v, s.ptr⟩ }) ∧
  ∀ (s : State) (w : MicroWord), s.Ready → Memory.read s.rom (s.cw.prog ||| s.but).toNat = some w → w.brf = v →
    step s = .next { s with
      moves := s.moves.tail
      ptrPrev := s.ptr, ptr := s.cw.prog ||| s.but, ptrBuf := s.cw.prog ||| s.but, cw := w, but := s.butNext
      fault := some ⟨k, .branchEvaluator, v, s.cw.prog ||| s.but⟩ }

/-- Row `i` is value `v` of BRF and gives the branch value `e s`: its encoding, and that running it writes the in-flux
latch and nothing else. -/
def BranchRowGives (i : Instr) (v : Nat) (e : State → Byte) : Prop :=
  (∀ W : PackedWord, W.getLsbD 31 = true → (W.extractLsb' 8 5).toNat = v → decodeField .brf W = .ok i) ∧
  ∀ s : State, s.fault = none → exec i s = .next { s with butNext := e s }

/-- Row `i` is value `v` of BCS and gives the constant `c s`: its encoding, what running it does, and what evaluating
BC_OUT does while the current word holds that selector. -/
def ConstantRowGives (i : Instr) (v : Nat) (c : State → Word) : Prop :=
  (∀ W : PackedWord, W.getLsbD 31 = true → (W.extractLsb' 13 4).toNat = v → decodeField .bcs W = .ok i) ∧
  (∀ s : State, s.fault = none → exec i s = .next { s with bcOut := c s }) ∧
  ∀ (s : State) (ms : List EnvMove), s.fault = none → s.moves = .evaluate .bcOut :: ms → s.cw.bcs = v →
    step s = .next { s with moves := ms, bcOut := c s }

/-- Row `i` is value `v` of BCS and aborts with kind `k`, never giving a value. -/
def ConstantRowAborts (i : Instr) (v : Nat) (k : AbortKind) : Prop :=
  (∀ W : PackedWord, W.getLsbD 31 = true → (W.extractLsb' 13 4).toNat = v → decodeField .bcs W = .ok i) ∧
  (∀ s : State, s.fault = none → exec i s = .next { s with fault := some ⟨k, .bConstantGenerator, v, s.ptr⟩ }) ∧
  ∀ (s : State) (ms : List EnvMove), s.fault = none → s.moves = .evaluate .bcOut :: ms → s.cw.bcs = v →
    step s = .next { s with moves := ms, fault := some ⟨k, .bConstantGenerator, v, s.ptr⟩ }

end Sys2Proof.Claims

open Sys2Proof.Claims

/-! ## Encoding -/

/-- Words written out from the spec: R64's own example, and words of the programs P1 to P3 of 95_test_vectors.md. -/
def Obligations.SpecWordsDecodeAsWritten : Prop :=
  unpack 0x80800016 = some { prog := 0o26, brf := 0, bcs := 0, bms := 0, dms := 0, clkf := 1 } ∧
  unpack 0x83800A04 = some { prog := 0o04, brf := 0o12, bcs := 0, bms := 0, dms := 0, clkf := 7 } ∧
  unpack 0x00000016 = none ∧
  decodeField .impl 0x80800016 = .ok .impl1 ∧
  decodeField .prog 0x82800020 = .ok (.prog 0o40) ∧
  decodeField .bcs 0x80018000 = .ok .bc14 ∧
  decodeField .bml 0x80060000 = .ok .bml3 ∧
  decodeField .bmh 0x80080000 = .ok .bmh1 ∧
  decodeField .dms 0x80600000 = .ok .dm3 ∧
  decodeField .brf 0x83001410 = .ok .but24 ∧
  decodeField .clkf 0x83001410 = .ok .clk6

/-- Packing a well-formed record and unpacking it gives the record back, but for the uninterpreted fields, which the
packed form does not hold; and every unpacked record is well formed. -/
def Obligations.UnpackOfPackGivesTheRecord : Prop :=
  (∀ w : MicroWord, w.wf = true → unpack (pack w) = some { w with rest := {} }) ∧
  ∀ (W : PackedWord) (w : MicroWord), unpack W = some w → w.wf = true

/-- Unpacking a word and packing it gives the word back with the ignored bits 30:26 written 0; an entry is
unimplemented exactly when bit 31 is 0. -/
def Obligations.PackOfUnpackGivesTheWord : Prop :=
  (∀ (W : PackedWord) (w : MicroWord), unpack W = some w → pack w = W &&& 0x83FFFFFF) ∧
  ∀ W : PackedWord, unpack W = none ↔ W.getLsbD 31 = false

/-- Every row's word, written by the encoder, selects that row in the row's own field. -/
def Obligations.EncodedRowsDecodeToThemselves : Prop :=
  ∀ i : Instr, decodeField i.field (encode i) = .ok i ∧ i ∈ rowsOf (encode i)

/-- An implemented word selects exactly one row of every field, the one whose value its bits spell; an unimplemented
word selects IMPL.0 and has no fields. -/
def Obligations.EveryFieldSelectsTheRowOfItsBits : Prop :=
  (∀ W : PackedWord, W.getLsbD 31 = true →
    decodeField .impl W = .ok .impl1 ∧
    decodeField .prog W = .ok (.prog (W.extractLsb' 0 8)) ∧
    (∃ i, decodeField .brf W = .ok i ∧ i.field = .brf ∧ i.value = (W.extractLsb' 8 5).toNat) ∧
    (∃ i, decodeField .bcs W = .ok i ∧ i.field = .bcs ∧ i.value = (W.extractLsb' 13 4).toNat) ∧
    (∃ i, decodeField .bml W = .ok i ∧ i.field = .bml ∧ i.value = (W.extractLsb' 17 2).toNat) ∧
    (∃ i, decodeField .bmh W = .ok i ∧ i.field = .bmh ∧ i.value = (W.extractLsb' 19 2).toNat) ∧
    (∃ i, decodeField .dms W = .ok i ∧ i.field = .dms ∧ i.value = (W.extractLsb' 21 2).toNat) ∧
    (∃ i, decodeField .clkf W = .ok i ∧ i.field = .clkf ∧ i.value = (W.extractLsb' 23 3).toNat)) ∧
  ∀ W : PackedWord, W.getLsbD 31 = false →
    decodeField .impl W = .ok .impl0 ∧ ∀ f, f ≠ .impl → decodeField f W = .error .noFields

/-! ## The clock model -/

/-- The pulse table: the pulse count and the two slots of every mode, the count being the number of slots that are not
NONE (40_clock_model.md section 1). OFF's row is the spec's own decision (92_eei_decisions.md D6). -/
def Obligations.PulseTableOfEachMode : Prop :=
  (pulseCount .off = 0 ∧ pulseSlots .off = [.none, .none]) ∧
  (pulseCount .cl1 = 1 ∧ pulseSlots .cl1 = [.p1, .none]) ∧
  (pulseCount .cl2 = 1 ∧ pulseSlots .cl2 = [.p2, .none]) ∧
  (pulseCount .cl3 = 2 ∧ pulseSlots .cl3 = [.p2, .p3]) ∧
  ∀ m, pulseCount m = ((pulseSlots m).filter (fun p => p ≠ .none)).length

/-- R96: the due-predicate; only four pairs of a pulse and a mode occur in a cycle, and the mode does not change during
the pulses. -/
def Obligations.DuePulses : Prop :=
  (∀ (p : Pulse) (m : ClockMode), due p m = true ↔ (p = .p1 ∨ (p = .p2 ∧ m ≠ .cl3) ∨ p = .p3)) ∧
  (∀ (m : ClockMode) (p : Pulse), p ∈ activePulses m →
    (p, m) ∈ [(.p1, .cl1), (.p2, .cl2), (.p2, .cl3), ((.p3, .cl3) : Pulse × ClockMode)]) ∧
  ∀ (m : ClockMode) (p : Pulse) (s t : State), s.fault = none → pulseStep m p s = .next t → t.mode = s.mode

/-- In each mode a cycle can run in, exactly one pulse of the cycle is due. -/
def Obligations.ExactlyOnePulseOfACycleIsDue : Prop :=
  ∀ m : ClockMode, m ≠ .off → ((activePulses m).filter fun p => due p m).length = 1

/-- R98: the selection of the next clock mode, for a value of any size; never OFF; applied once in a cycle, after the
register-transfer step, to the word then current. -/
def Obligations.ClockSelectionByValue : Prop :=
  (∀ c : Nat, 1 ≤ c → c ≤ 2 → clockSelect c = .value .cl1) ∧
  (∀ c : Nat, 3 ≤ c → c ≤ 4 → clockSelect c = .value .cl2) ∧
  (∀ c : Nat, 5 ≤ c → c ≤ 6 → clockSelect c = .value .cl3) ∧
  (∀ c : Nat, c = 0 ∨ 6 < c → clockSelect c = .raised ⟨.impossibleClockState, .microCycleEngine, c⟩ ∧
    ∀ s : State, s.fault = none →
      evalClock c s = .next { s with fault := some ⟨.impossibleClockState, .microCycleEngine, c, s.ptr⟩ }) ∧
  (∀ c : Nat, clockSelect c ≠ .value .off) ∧
  ∀ s : State, s.Ready → step s = andThen (rtStep { s with moves := s.moves.tail }) fun u => evalClock u.cw.clkf u

/-- R100 to R105: the rows CLK.1 to CLK.6, their encodings, what running them does (the mode and nothing else), and the
mode a completed cycle that fetched such a word ends in. -/
def Obligations.ClockRowsWriteTheMode : Prop :=
  ∀ (i : Instr) (c : Nat) (m : ClockMode),
    (i, c, m) ∈ [(.clk1, 1, .cl1), (.clk2, 2, .cl1), (.clk3, 3, .cl2), (.clk4, 4, .cl2), (.clk5, 5, .cl3),
      ((.clk6, 6, .cl3) : Instr × Nat × ClockMode)] →
    (∀ W : PackedWord, W.getLsbD 31 = true → (W.extractLsb' 23 3).toNat = c → decodeField .clkf W = .ok i) ∧
    (∀ s : State, s.fault = none → exec i s = .next { s with mode := m }) ∧
    ∀ (s t : State), s.Ready → step s = .next t → t.fault = none → t.cw.clkf = c → t.mode = m

/-- R99, R106: the rows CLK.0 and CLK.7 abort; in a cycle the register-transfer step has completed by then and the mode
keeps its value. -/
def Obligations.ImpossibleClockRowsAbort : Prop :=
  ∀ (i : Instr) (c : Nat), (i, c) ∈ [(.clk0, 0), ((.clk7, 7) : Instr × Nat)] →
    (∀ W : PackedWord, W.getLsbD 31 = true → (W.extractLsb' 23 3).toNat = c → decodeField .clkf W = .ok i) ∧
    (∀ s : State, s.fault = none →
      exec i s = .next { s with fault := some ⟨.impossibleClockState, .microCycleEngine, c, s.ptr⟩ }) ∧
    ∀ (s : State) (w : MicroWord) (e : Byte), s.Ready →
      Memory.read s.rom (s.cw.prog ||| s.but).toNat = some w → w.clkf = c →
      branchEval w.brf s.sw (s.d == 0) = .value e →
      ∃ t, step s = .next t ∧
        t.fault = some ⟨.impossibleClockState, .microCycleEngine, c, s.cw.prog ||| s.but⟩ ∧
        t.ptrPrev = s.ptr ∧ t.ptr = s.cw.prog ||| s.but ∧ t.ptrBuf = s.cw.prog ||| s.but ∧ t.cw = w ∧
        t.but = s.butNext ∧ t.butNext = e ∧ t.mode = s.mode

/-! ## The B-constant generator -/

/-- R111 to R113, R119, R121, R122, R124, R126: the rows with one fixed constant, whatever the single-clock flag. -/
def Obligations.FixedConstantRowsGiveTheirConstant : Prop :=
  ∀ (i : Instr) (v : Nat) (c : Word),
    (i, v, c) ∈ [(.bc00, 0o00, 0x0000), (.bc01, 0o01, 0x0001), (.bc02, 0o02, 0x0002), (.bc10, 0o10, Config.bc10),
      (.bc12, 0o12, Config.bc12), (.bc13, 0o13, Config.bc13), (.bc15, 0o15, Config.bc15),
      ((.bc17, 0o17, Config.bc17) : Instr × Nat × Word)] →
    ConstantRowGives i v fun _ => c

/-- R123: BC.14 gives 0 when the single-clock-mode flag is set and the nonzero BC_14_RUN when it is clear. -/
def Obligations.ConstantFourteenFollowsTheSingleClockFlag : Prop :=
  ConstantRowGives .bc14 0o14 (fun s => if s.sclk then 0x0000 else Config.bc14Run) ∧ Config.bc14Run ≠ 0

/-- R114, R118, R120, R125: the unspecified selectors of the generator. -/
def Obligations.UnspecifiedConstantRowsAbort : Prop :=
  ∀ (i : Instr) (v : Nat),
    (i, v) ∈ [(.bc03, 0o03), (.bc07, 0o07), (.bc11, 0o11), ((.bc16, 0o16) : Instr × Nat)] →
    ConstantRowAborts i v .unspecifiedSelector

/-- R115, R116, R117: the invalid selectors of the generator. -/
def Obligations.InvalidConstantRowsAbort : Prop :=
  ∀ (i : Instr) (v : Nat), (i, v) ∈ [(.bc04, 0o04), (.bc05, 0o05), ((.bc06, 0o06) : Instr × Nat)] →
    ConstantRowAborts i v .invalidSelector

/-- R127, R129: out of range aborts, which no packed word reaches; only selector 0o14 depends on the single-clock flag;
and an evaluation of BC_OUT is the generator on the current word's selector and that flag. -/
def Obligations.ConstantGeneratorRangeAndCondition : Prop :=
  (∀ (n : Nat) (k : Bool), 16 ≤ n → bConst n k = .raised ⟨.invalidSelector, .bConstantGenerator, n⟩) ∧
  (∀ (W : PackedWord) (w : MicroWord), unpack W = some w → w.bcs < 16) ∧
  (∀ n : Nat, n ≠ 0o14 → bConst n true = bConst n false) ∧
  bConst 0o14 true ≠ bConst 0o14 false ∧
  ∀ (s : State) (ms : List EnvMove), s.fault = none → s.moves = .evaluate .bcOut :: ms →
    step s =
      match bConst s.cw.bcs s.sclk with
      | .raised e => .next { s with moves := ms, fault := some ⟨e.kind, e.component, e.value, s.ptr⟩ }
      | .value c => .next { s with moves := ms, bcOut := c }

/-! ## The B-mux -/

/-- The half selectors whose operand is B alone: each puts its byte of B in its own half of BMUX_OUT (42_b_mux.md sections 2
and 3). That a half row run by itself leaves the other half of BMUX_OUT as it was is the model's choice (log 14). -/
def Obligations.HalfRowsOfBSelectTheirByte : Prop :=
  (∀ (i : Instr) (v : Nat) (x : Word → Byte),
    (i, v, x) ∈ [(.bml0, 0, fun b => b.extractLsb' 0 8), (.bml1, 1, fun b => b.extractLsb' 0 8),
      ((.bml2, 2, fun b => b.extractLsb' 8 8) : Instr × Nat × (Word → Byte))] →
    (∀ W : PackedWord, W.getLsbD 31 = true → (W.extractLsb' 17 2).toNat = v → decodeField .bml W = .ok i) ∧
    ∀ s : State, s.fault = none → ∃ y : Word, exec i s = .next { s with bmuxOut := y } ∧
      y.extractLsb' 0 8 = x s.b ∧ y.extractLsb' 8 8 = s.bmuxOut.extractLsb' 8 8) ∧
  ∀ (i : Instr) (v : Nat) (x : Word → Byte),
    (i, v, x) ∈ [(.bmh0, 0, fun b => b.extractLsb' 8 8), (.bmh1, 1, fun b => if b.getLsbD 7 then 0xFF else 0x00),
      ((.bmh2, 2, fun b => b.extractLsb' 0 8) : Instr × Nat × (Word → Byte))] →
    (∀ W : PackedWord, W.getLsbD 31 = true → (W.extractLsb' 19 2).toNat = v → decodeField .bmh W = .ok i) ∧
    ∀ s : State, s.fault = none → ∃ y : Word, exec i s = .next { s with bmuxOut := y } ∧
      y.extractLsb' 8 8 = x s.b ∧ y.extractLsb' 0 8 = s.bmuxOut.extractLsb' 0 8

/-- BML.3 and BMH.3 select a byte of the constant. That the constant of a row run by itself is the value last put on
BC_OUT is the model's choice (log 14); an evaluation of BMUX_OUT puts the generator's value there first. -/
def Obligations.HalfRowsOfTheConstantSelectItsByte : Prop :=
  (∀ W : PackedWord, W.getLsbD 31 = true → (W.extractLsb' 17 2).toNat = 3 → decodeField .bml W = .ok .bml3) ∧
  (∀ W : PackedWord, W.getLsbD 31 = true → (W.extractLsb' 19 2).toNat = 3 → decodeField .bmh W = .ok .bmh3) ∧
  (∀ s : State, s.fault = none → ∃ y : Word, exec .bml3 s = .next { s with bmuxOut := y } ∧
    y.extractLsb' 0 8 = s.bcOut.extractLsb' 0 8 ∧ y.extractLsb' 8 8 = s.bmuxOut.extractLsb' 8 8) ∧
  ∀ s : State, s.fault = none → ∃ y : Word, exec .bmh3 s = .next { s with bmuxOut := y } ∧
    y.extractLsb' 8 8 = s.bcOut.extractLsb' 8 8 ∧ y.extractLsb' 0 8 = s.bmuxOut.extractLsb' 0 8

/-- R130, R131, R140: the B-mux as one function of its selector, B and the constant, each half by its own two selector
bits, every selector below 16 giving a value; out of range it aborts, which no packed word reaches. -/
def Obligations.BMuxSelectsEachHalfByItself : Prop :=
  (∀ (n : Nat) (b c : Word), n < 16 → ∃ v : Word, bMux n b c = .value v ∧
    v.extractLsb' 0 8 =
      (if n % 4 = 2 then b.extractLsb' 8 8 else if n % 4 = 3 then c.extractLsb' 0 8 else b.extractLsb' 0 8) ∧
    v.extractLsb' 8 8 =
      (if n / 4 = 0 then b.extractLsb' 8 8
       else if n / 4 = 1 then (if b.getLsbD 7 then 0xFF else 0x00)
       else if n / 4 = 2 then b.extractLsb' 0 8 else c.extractLsb' 8 8)) ∧
  (∀ (n : Nat) (b c : Word), 16 ≤ n → bMux n b c = .raised ⟨.invalidSelector, .bMux, n⟩) ∧
  (∀ s : State, s.fault = none → 16 ≤ s.cw.bms →
    evalBmuxHalves s = .next { s with fault := some ⟨.invalidSelector, .bMux, s.cw.bms, s.ptr⟩ }) ∧
  ∀ (W : PackedWord) (w : MicroWord), unpack W = some w → w.bms < 16

/-- Evaluating BMUX_OUT: the constant generator first and always, then the B-mux on B and that constant. The eager
wiring is the spec's own decision (42_b_mux.md section 4: "this spec takes the eager reading"). -/
def Obligations.BmuxOutIsTheMuxOfTheGeneratedConstant : Prop :=
  ∀ (s : State) (ms : List EnvMove), s.fault = none → s.moves = .evaluate .bmuxOut :: ms →
    step s =
      match bConst s.cw.bcs s.sclk with
      | .raised e => .next { s with moves := ms, fault := some ⟨e.kind, e.component, e.value, s.ptr⟩ }
      | .value c =>
        match bMux s.cw.bms s.b c with
        | .raised e =>
          .next { s with moves := ms, bcOut := c, fault := some ⟨e.kind, e.component, e.value, s.ptr⟩ }
        | .value v => .next { s with moves := ms, bcOut := c, bmuxOut := v }

/-! ## The D-mux -/

/-- R151, R152, R153: the rows that pass an input through; DMUX_OUT is written and nothing else. -/
def Obligations.PassThroughRowsOfTheDMux : Prop :=
  ∀ (i : Instr) (v : Nat) (x : State → Word),
    (i, v, x) ∈ [(.dm0, 0, fun s => s.busRd), (.dm1, 1, fun s => s.unibus),
      ((.dm2, 2, fun s => s.d) : Instr × Nat × (State → Word))] →
    (∀ W : PackedWord, W.getLsbD 31 = true → (W.extractLsb' 21 2).toNat = v → decodeField .dms W = .ok i) ∧
    ∀ s : State, s.fault = none → exec i s = .next { s with dmuxOut := x s }

/-- R154: DM.3 shifts D right by one place with the carry-in in bit 15; D itself is not written. -/
def Obligations.ShiftRowInsertsTheCarry : Prop :=
  (∀ W : PackedWord, W.getLsbD 31 = true → (W.extractLsb' 21 2).toNat = 3 → decodeField .dms W = .ok .dm3) ∧
  ∀ s : State, s.fault = none → ∃ y : Word, exec .dm3 s = .next { s with dmuxOut := y } ∧
    y.getLsbD 15 = s.carryIn ∧ ∀ i, i < 15 → y.getLsbD i = s.d.getLsbD (i + 1)

/-- R150, R155: the D-mux as one function, every selector below 4 giving a value; out of range it aborts, which no packed
word reaches. -/
def Obligations.DMuxByItsSelector : Prop :=
  (∀ (r u d : Word) (ci : Bool),
    dMux 0 r u d ci = .value r ∧ dMux 1 r u d ci = .value u ∧ dMux 2 r u d ci = .value d ∧
    (∃ v : Word, dMux 3 r u d ci = .value v ∧ v.getLsbD 15 = ci ∧ v.extractLsb' 0 15 = d.extractLsb' 1 15) ∧
    ∀ n, 4 ≤ n → dMux n r u d ci = .raised ⟨.invalidSelector, .dMux, n⟩) ∧
  (∀ (s : State) (n : Nat), s.fault = none → 4 ≤ n →
    evalDmux n s = .next { s with fault := some ⟨.invalidSelector, .dMux, n, s.ptr⟩ }) ∧
  ∀ (W : PackedWord) (w : MicroWord), unpack W = some w → w.dms < 4

/-- Evaluating DMUX_OUT: the D-mux on the values this evaluation finds on the ports, whatever stood there before, and D,
by the current word's selector. The wiring and the free inputs are the spec's own framing (43_d_mux.md, "Wiring in the
data-path network"; 92_eei_decisions.md D1, D27); that an evaluation carries its values is the model's (log 9). -/
def Obligations.DmuxOutIsTheMuxOfThePorts : Prop :=
  ∀ (s : State) (r u : Word) (ci : Bool) (ms : List EnvMove), s.fault = none →
    s.moves = .evaluate (.dmuxOut r u ci) :: ms →
    step s =
      match dMux s.cw.dms r u s.d ci with
      | .raised e =>
        .next { s with
          moves := ms, busRd := r, unibus := u, carryIn := ci, fault := some ⟨e.kind, e.component, e.value, s.ptr⟩ }
      | .value v => .next { s with moves := ms, busRd := r, unibus := u, carryIn := ci, dmuxOut := v }

/-! ## The branch evaluator -/

/-- R170: BUT.00 gives 0. -/
def Obligations.BranchRowZeroGivesZero : Prop := BranchRowGives .but00 0o00 fun _ => 0x00

/-- R176: BUT.06 gives the switch flip-flop, which it does not clear. -/
def Obligations.BranchRowSixGivesTheSwitch : Prop :=
  BranchRowGives .but06 0o06 fun s => if s.sw then 0x01 else 0x00

/-- R180: BUT.12 gives 1 exactly when all 16 bits of D are zero. -/
def Obligations.BranchRowTwelveGivesTheZeroDetect : Prop :=
  BranchRowGives .but12 0o12 fun s => if s.d = 0 then 0x01 else 0x00

/-- BUT.24 gives 0. The second bit is the spec's own reading (92_eei_decisions.md D11: "for bank B, index 4 gives 0 for
both result bits", log 15). -/
def Obligations.BranchRowTwentyFourGivesZero : Prop := BranchRowGives .but24 0o24 fun _ => 0x00

/-- R171 to R175, R177 to R179: the unspecified branch sources 01 to 11. -/
def Obligations.UnspecifiedBranchRowsBelowTwelveAbort : Prop :=
  ∀ (i : Instr) (v : Nat),
    (i, v) ∈ [(.but01, 0o01), (.but02, 0o02), (.but03, 0o03), (.but04, 0o04), (.but05, 0o05), (.but07, 0o07),
      (.but10, 0o10), ((.but11, 0o11) : Instr × Nat)] →
    BranchRowAborts i v .unspecifiedSelector

/-- R181 to R188: the unspecified branch sources 13 to 22. -/
def Obligations.UnspecifiedBranchRowsBelowTwentyThreeAbort : Prop :=
  ∀ (i : Instr) (v : Nat),
    (i, v) ∈ [(.but13, 0o13), (.but14, 0o14), (.but15, 0o15), (.but16, 0o16), (.but17, 0o17), (.but20, 0o20),
      (.but21, 0o21), ((.but22, 0o22) : Instr × Nat)] →
    BranchRowAborts i v .unspecifiedSelector

/-- R191 to R201: the unspecified branch sources 25 to 37. -/
def Obligations.UnspecifiedBranchRowsFromTwentyFiveAbort : Prop :=
  ∀ (i : Instr) (v : Nat),
    (i, v) ∈ [(.but25, 0o25), (.but26, 0o26), (.but27, 0o27), (.but30, 0o30), (.but31, 0o31), (.but32, 0o32),
      (.but33, 0o33), (.but34, 0o34), (.but35, 0o35), (.but36, 0o36), ((.but37, 0o37) : Instr × Nat)] →
    BranchRowAborts i v .unspecifiedSelector

/-- R189: BUT.23, the architecturally unused index 3 of bank B. -/
def Obligations.UnusedBranchRowAborts : Prop := BranchRowAborts .but23 0o23 .invalidSelector

/-- The evaluator on every branch field of any size: which ones give a value, that a value has at most its lowest bit
set, which abort and how (95_test_vectors.md section 2.5, "Exhaustive statement"; the range check and the second bank
are the spec's own decisions, 92_eei_decisions.md D11, D12). -/
def Obligations.BranchEvaluatorOnEveryField : Prop :=
  ∀ (f : Nat) (sw dz : Bool),
    (f ∈ [0o00, 0o06, 0o12, 0o24] → ∃ e : Byte, branchEval f sw dz = .value e ∧
      (e = 1 ↔ (f = 0o06 ∧ sw = true) ∨ (f = 0o12 ∧ dz = true)) ∧ (e ≠ 1 → e = 0)) ∧
    (f = 0o23 ∨ 32 ≤ f → branchEval f sw dz = .raised ⟨.invalidSelector, .branchEvaluator, f⟩) ∧
    (f < 32 → f ∉ [0o00, 0o06, 0o12, 0o23, 0o24] →
      branchEval f sw dz = .raised ⟨.unspecifiedSelector, .branchEvaluator, f⟩)

/-! ## The ROM -/

/-- R43: what the fetch contract returns and raises, and the record of the abort of the fetch at the pointer. -/
def Obligations.RomFetchContract : Prop :=
  (∀ (rom : Memory) (a : MicroAddr),
    (∀ w, Memory.read rom a.toNat = some w → romFetch rom a = .value w) ∧
    (Memory.read rom a.toNat = none → romFetch rom a = .raised ⟨.unimplementedMicroaddress, .microRom, a.toNat⟩)) ∧
  ∀ s : State, s.fault = none → Memory.read s.rom s.ptr.toNat = none →
    exec .impl1 s = .next { s with fault := some ⟨.unimplementedMicroaddress, .microRom, s.ptr.toNat, s.ptr⟩ }

/-- R44: IMPL.1, the fetch of an implemented entry: its fields become the current word, whatever they are, and nothing
else changes. -/
def Obligations.FetchOfAnImplementedEntryLatchesIt : Prop :=
  (∀ W : PackedWord, W.getLsbD 31 = true → decodeField .impl W = .ok .impl1) ∧
  ∀ (s : State) (w : MicroWord), s.fault = none → Memory.read s.rom s.ptr.toNat = some w →
    exec .impl1 s = .next { s with cw := w }

/-- R45: IMPL.0, the fetch of an unimplemented entry aborts; in a cycle the pointers are latched by then. -/
def Obligations.FetchOfAnUnimplementedEntryAborts : Prop :=
  (∀ W : PackedWord, W.getLsbD 31 = false → decodeField .impl W = .ok .impl0) ∧
  (∀ s : State, s.fault = none →
    exec .impl0 s = .next { s with fault := some ⟨.unimplementedMicroaddress, .microRom, s.ptr.toNat, s.ptr⟩ }) ∧
  ∀ s : State, s.Ready → Memory.read s.rom (s.cw.prog ||| s.but).toNat = none →
    step s = .next { s with
      moves := s.moves.tail
      ptrPrev := s.ptr, ptr := s.cw.prog ||| s.but, ptrBuf := s.cw.prog ||| s.but
      fault := some ⟨.unimplementedMicroaddress, .microRom, (s.cw.prog ||| s.but).toNat, s.cw.prog ||| s.but⟩ }

/-- R46: no step and no row writes the ROM: every address reads as before. -/
def Obligations.RomIsNeverWritten : Prop :=
  (∀ s t : State, step s = .next t → t.rom = s.rom ∧ ∀ a, Memory.read t.rom a = Memory.read s.rom a) ∧
  ∀ (i : Instr) (s t : State), exec i s = .next t → t.rom = s.rom ∧ ∀ a, Memory.read t.rom a = Memory.read s.rom a

/-- Loading an entry puts it at its address, leaves every other entry alone and keeps the canonical form; canonical ROMs
with equal entries are equal data. The list form is the model's own (log 4). -/
def Obligations.LoadingAnEntryChangesThatEntryOnly : Prop :=
  (∀ (m : Memory) (a b : MicroAddr) (e : Option MicroWord), Memory.wf m = true →
    Memory.wf (Memory.load m a.toNat e) = true ∧ Memory.read (Memory.load m a.toNat e) a.toNat = e ∧
    (b ≠ a → Memory.read (Memory.load m a.toNat e) b.toNat = Memory.read m b.toNat)) ∧
  ∀ m m' : Memory, Memory.wf m = true → Memory.wf m' = true →
    (∀ a : MicroAddr, Memory.read m a.toNat = Memory.read m' a.toNat) → m = m'

/-! ## The micro-cycle engine -/

/-- R214: the program field forms the next micro-address by OR, and the pointers are latched; nothing else changes. In a
cycle the fetch that follows aborts if the entry there is unimplemented, and else `ptr` is the current word's address. -/
def Obligations.ProgramFieldFormsTheNextAddress : Prop :=
  (∀ W : PackedWord, W.getLsbD 31 = true → decodeField .prog W = .ok (.prog (W.extractLsb' 0 8))) ∧
  (∀ (s : State) (p : MicroAddr), s.fault = none →
    exec (.prog p) s = .next { s with ptrPrev := s.ptr, ptr := p ||| s.but, ptrBuf := p ||| s.but }) ∧
  ∀ s t : State, s.Ready → step s = .next t →
    t.ptr = s.cw.prog ||| s.but ∧
    (Memory.read s.rom t.ptr.toNat = none →
      t.fault = some ⟨.unimplementedMicroaddress, .microRom, t.ptr.toNat, t.ptr⟩) ∧
    (t.fault = none → Memory.read t.rom t.ptr.toNat = some t.cw)

/-- The register-transfer step, sub-steps S1 to S7 in order, with the abort of S4 and of S6 where it falls
(45_micro_cycle_engine.md section 1). The time and the free value of S7 are the spec's own decision
(92_eei_decisions.md D17); that the value also depends on a draw number, and the counter, are the model's (log 7). -/
def Obligations.RegisterTransferStepInOrder : Prop :=
  ∀ s : State, s.fault = none →
    let a := s.cw.prog ||| s.but
    let s3 := { s with ptrPrev := s.ptr, ptr := a, ptrBuf := a }
    rtStep s =
      match Memory.read s.rom a.toNat with
      | none => .next { s3 with fault := some ⟨.unimplementedMicroaddress, .microRom, a.toNat, a⟩ }
      | some w =>
        let s5 := { s3 with cw := w, but := s.butNext }
        match branchEval w.brf s.sw (s.d == 0) with
        | .raised c => .next { s5 with fault := some ⟨c.kind, c.component, c.value, a⟩ }
        | .value e =>
          let s6 := { s5 with butNext := e }
          .next { s6 with disp := Config.displaySrc s6.displayInputs, draws := s.draws + 1 }

/-- R216: a pulse that is not due changes nothing; the first pulse of a CL3 cycle is one. -/
def Obligations.PulseNotDueChangesNothing : Prop :=
  (∀ (m : ClockMode) (p : Pulse) (s : State), due p m = false → pulseStep m p s = .next s) ∧
  (activePulses .cl3).head? = some .p2 ∧ due .p2 .cl3 = false

/-- R217: after a completed cycle the mode is the one the clock field of the word then current selects; where that
selection aborts, the mode keeps its value; nothing else writes the mode: no pulse and no other move of the environment. -/
def Obligations.CycleEndsInTheSelectedMode : Prop :=
  (∀ s t : State, s.Ready → step s = .next t →
    (t.fault = none → clockSelect t.cw.clkf = .value t.mode) ∧ (t.fault ≠ none → t.mode = s.mode)) ∧
  (∀ (s u : State) (c : AbortCause), s.Ready → rtStep { s with moves := s.moves.tail } = .next u → u.fault = none →
    clockSelect u.cw.clkf = .raised c →
    step s = .next { u with fault := some ⟨c.kind, c.component, c.value, u.ptr⟩ }) ∧
  (∀ s t : State, s.fault = none → rtStep s = .next t → t.mode = s.mode) ∧
  ∀ s t : State, s.nextMove ≠ .cycle → step s = .next t → t.mode = s.mode

/-- A cycle step runs the rows of the packed word found at the address it forms: the invocation leaves the environment's
schedule, then PROG of the current word, then the fetched word's IMPL row, and, if it is implemented, its BUT row after the
in-flux latch moved, the display draw, and its CLK row, each one by `exec`, none after an abort. -/
def Obligations.StepRunsTheDecodedRows : Prop :=
  ∀ (s : State) (W : PackedWord), s.Ready → Memory.read s.rom (s.cw.prog ||| s.but).toNat = unpack W →
    (W.getLsbD 31 = false →
      step s = andThen (exec (.prog s.cw.prog) { s with moves := s.moves.tail }) (exec .impl0)) ∧
    ∀ ib ic : Instr, decodeField .brf W = .ok ib → decodeField .clkf W = .ok ic →
      step s =
        andThen (exec (.prog s.cw.prog) { s with moves := s.moves.tail }) fun s => andThen (exec .impl1 s) fun s =>
          andThen (exec ib { s with but := s.butNext }) fun s =>
            exec ic { s with disp := Config.displaySrc s.displayInputs, draws := s.draws + 1 }

/-- An evaluation step runs the data-path rows of the current word, for a current word that a packed word spells: the
generator's row; the generator's row and then the two halves' rows; the D-mux's row, with the values this evaluation finds
on the ports. -/
def Obligations.EvaluationRunsTheDecodedRows : Prop :=
  ∀ (s : State) (ms : List EnvMove) (W : PackedWord), s.fault = none → unpack W = some s.cw →
    (∀ i, decodeField .bcs W = .ok i → s.moves = .evaluate .bcOut :: ms → step s = exec i { s with moves := ms }) ∧
    (∀ i il ih, decodeField .bcs W = .ok i → decodeField .bml W = .ok il → decodeField .bmh W = .ok ih →
      s.moves = .evaluate .bmuxOut :: ms →
      step s = andThen (exec i { s with moves := ms }) fun s => andThen (exec il s) (exec ih)) ∧
    ∀ i r u c, decodeField .dms W = .ok i → s.moves = .evaluate (.dmuxOut r u c) :: ms →
      step s = exec i { s with moves := ms, busRd := r, unibus := u, carryIn := c }

/-- The machine cycle as ONE function of the state, in every mode a cycle can run in: the next state of every cycle,
completed or aborted, with every element the cycle does not write unchanged. The invocation leaves the environment's
schedule (log 8); the draw number and its counter are the model's (log 7). -/
def Obligations.CycleIsOneFunctionOfTheState : Prop :=
  ∀ s : State, s.Ready →
    let a := s.cw.prog ||| s.but
    let s1 := { s with moves := s.moves.tail, ptrPrev := s.ptr, ptr := a, ptrBuf := a }
    step s =
      match Memory.read s.rom a.toNat with
      | none => .next { s1 with fault := some ⟨.unimplementedMicroaddress, .microRom, a.toNat, a⟩ }
      | some w =>
        let s2 := { s1 with cw := w, but := s.butNext }
        match branchEval w.brf s.sw (s.d == 0) with
        | .raised c => .next { s2 with fault := some ⟨c.kind, c.component, c.value, a⟩ }
        | .value e =>
          let s6 := { s2 with butNext := e }
          let s3 := { s6 with disp := Config.displaySrc s6.displayInputs, draws := s.draws + 1 }
          match clockSelect w.clkf with
          | .raised c => .next { s3 with fault := some ⟨c.kind, c.component, c.value, a⟩ }
          | .value m => .next { s3 with mode := m }

/-- The branch pipeline, over a whole run from reset, the environment choosing the switch before every cycle: the
address formed by register-transfer step k+2 is the program field of the word fetched by step k+1 OR the branch value
evaluated when step k fetched its word; the first two addresses see the reset values of the latches. The distance is the
spec's own reading (92_eei_decisions.md D13), and that D keeps its reset value throughout is its decision D16 (log 15). -/
def Obligations.BranchValueIsUsedTwoStepsLater : Prop :=
  ∀ (p : ResetParams) (rom : Memory) (sws : Nat → Bool) (st : Nat → State) (n : Nat),
    st 0 = State.resetWith p rom →
    (∀ k, k < n → step { st k with sw := sws k } = .next (st (k + 1)) ∧ (st (k + 1)).fault = none) →
    (1 ≤ n → (st 1).ptr = (st 0).cw.prog) ∧
    (2 ≤ n → (st 2).ptr = (st 1).cw.prog ||| p.butNext) ∧
    ∀ k, k + 3 ≤ n → ∃ e : Byte,
      branchEval (st (k + 1)).cw.brf (sws k) (p.d == 0) = .value e ∧
      (st (k + 1)).butNext = e ∧ (st (k + 2)).but = e ∧ (st (k + 3)).ptr = (st (k + 2)).cw.prog ||| e

/-- A completed cycle gives the same state whichever mode it runs in, but for the display latch, whose draw may look at
the mode (log 7). -/
def Obligations.CompletedCycleDoesNotDependOnTheMode : Prop :=
  ∀ (s t : State) (m : ClockMode), s.Ready → m ≠ .off → step s = .next t → t.fault = none →
    ∃ t', step { s with mode := m } = .next t' ∧ { t' with disp := t.disp } = t

/-- R225: the document's end-to-end property, for every reset parameter and every ROM that meets its premises. -/
def Obligations.FirstCycleOfTheDocumentsScenario : Prop :=
  ∀ (p : ResetParams) (rom : Memory) (w0 w : MicroWord),
    Memory.read rom 0 = some w0 → w0.prog = 0o26 → Memory.read rom 0o26 = some w → branchOk w = true →
    (w.clkf = 1 ∨ w.clkf = 2) →
    ∃ t, step (State.resetWith p rom) = .next t ∧ t.fault = none ∧
      t.ptr = 0o26 ∧ t.ptrBuf = 0o26 ∧ t.ptrPrev = 0 ∧ t.mode = .cl1

/-! ## Aborts -/

/-- R245: after an abort nothing runs: no step, no row, no run of one step or more; the record stays as it is. -/
def Obligations.NothingRunsAfterAnAbort : Prop :=
  ∀ (s : State) (r : AbortRecord), s.fault = some r →
    step s = .fault (.runEnded r) ∧ (∀ i : Instr, exec i s = .fault (.runEnded r)) ∧
    ∀ n : Nat, Host.Core.run core (n + 1) s = .fault (.runEnded r)

/-- A step from a state in which no abort has occurred answers a next state, unless it is a cycle invoked in OFF, which
is refused (the spec's own decision D6, 45_micro_cycle_engine.md: "A cycle invoked with `mode = OFF` is refused"). That a move
other than a cycle is still taken in OFF, and so answers a next state, is the model's choice (log 17): the moves of
10_state.md section 4 are not tied to the mode. -/
def Obligations.StepStopsOnlyForACycleInOff : Prop :=
  ∀ s : State, s.fault = none →
    (s.mode = .off ∧ s.nextMove = .cycle → step s = .refused .cycleInOff) ∧
    (s.mode ≠ .off ∨ s.nextMove ≠ .cycle → ∃ t, step s = .next t)

/-! ## What each part may write and read -/

/-- The frame of every row: the elements its own field's consumer writes, the abort record, and nothing else; with an
abort, nothing but the record. -/
def Obligations.EachRowWritesOnlyItsOwnElements : Prop :=
  ∀ (i : Instr) (s t : State), exec i s = .next t →
    (t.fault ≠ none → t = { s with fault := t.fault }) ∧
    (i.field = .impl → t = { s with cw := t.cw, fault := t.fault }) ∧
    (i.field = .prog → t = { s with ptr := t.ptr, ptrBuf := t.ptrBuf, ptrPrev := t.ptrPrev }) ∧
    (i.field = .bcs → t = { s with bcOut := t.bcOut, fault := t.fault }) ∧
    (i.field = .bml ∨ i.field = .bmh → t = { s with bmuxOut := t.bmuxOut }) ∧
    (i.field = .dms → t = { s with dmuxOut := t.dmuxOut }) ∧
    (i.field = .brf → t = { s with butNext := t.butNext, fault := t.fault }) ∧
    (i.field = .clkf → t = { s with mode := t.mode, fault := t.fault })

/-- No step writes B, D or the single-clock flag; only a move that writes the switch does so, and only a move that drives
the input ports, or an evaluation of DMUX_OUT with the values it finds there, changes them. That nothing writes B, D and the
flag is the spec's own decision (92_eei_decisions.md D16, D28, log 15); that the input ports hold their values between such
moves is the model's choice (log 9), the spec having them free inputs (10_state.md section 4; D27). -/
def Obligations.StepKeepsWorkingRegistersAndConditions : Prop :=
  ∀ s t : State, step s = .next t →
    t.b = s.b ∧ t.d = s.d ∧ t.sclk = s.sclk ∧
    ((∀ x, s.nextMove ≠ .writeSwitch x) → t.sw = s.sw) ∧
    ((∀ r u c, s.nextMove ≠ .drive r u c ∧ s.nextMove ≠ .evaluate (.dmuxOut r u c)) →
      t.busRd = s.busRd ∧ t.unibus = s.unibus ∧ t.carryIn = s.carryIn)

/-- The environment's schedule: its first move is what happens, and leaves the schedule; a write of the switch or a drive
of the input ports does that and nothing else; an invocation of CYCLE may stand anywhere in the schedule, before, between
or after other moves, and is the machine cycle; with the schedule used up the next move is such an invocation (the moves
are the spec's framing, 10_state.md section 4; the schedule is the model's, log 8). -/
def Obligations.EnvironmentMovesWriteOnlyTheirPort : Prop :=
  (∀ (s : State) (ms : List EnvMove), s.fault = none →
    (∀ x, s.moves = .writeSwitch x :: ms → step s = .next { s with moves := ms, sw := x }) ∧
    (∀ r u c, s.moves = .drive r u c :: ms →
      step s = .next { s with moves := ms, busRd := r, unibus := u, carryIn := c }) ∧
    (s.moves = .cycle :: ms → step s = cycle { s with moves := ms }) ∧
    (s.moves = [] → step s = cycle s)) ∧
  ∀ s t : State, step s = .next t → t.moves = s.moves.tail

/-- The switch reaches a cycle only through BUT.06: where the fetched word has another branch field, two states that
differ in the switch step alike, but for the switch and the display draw. -/
def Obligations.SwitchReachesACycleOnlyThroughBranchRowSix : Prop :=
  ∀ (s t : State), s.Ready → s.eraseSwitch = t.eraseSwitch →
    (∀ w, Memory.read s.rom (s.cw.prog ||| s.but).toNat = some w → w.brf ≠ 0o06) →
    mapState State.eraseSwitch (step s) = mapState State.eraseSwitch (step t)

/-- No rule reads the uninterpreted fields: states that differ only in them step alike, but for them and the display
draw (that they are uninterpreted is the spec's own decision, 92_eei_decisions.md D5). -/
def Obligations.UninterpretedFieldsAreNotRead : Prop :=
  ∀ s t : State, s.eraseRest = t.eraseRest → mapState State.eraseRest (step s) = mapState State.eraseRest (step t)

/-- No cycle reads the data path: neither the selectors BCS, BMS and DMS of any word, nor the single-clock flag, B, the
input ports or the output ports (92_eei_decisions.md D18, the spec's own decision). -/
def Obligations.DataPathDoesNotReachACycle : Prop :=
  ∀ s t : State, s.Ready → s.eraseDataPath = t.eraseDataPath →
    mapState State.eraseDataPath (step s) = mapState State.eraseDataPath (step t)

/-! ## Reset, the invariant, safe runs -/

/-- What reset leaves, for any parameters and any ROM: with entry 0 implemented its word is latched, unconsulted; with
entry 0 unimplemented the run has aborted. `State.reset` is the case of the default parameters (log 2) and no ROM. -/
def Obligations.ResetLeavesTheStatedValues : Prop :=
  (∀ (p : ResetParams) (rom : Memory) (w : MicroWord), Memory.read rom 0 = some w →
    State.resetWith p rom = { State.reset with
      fault := none, rom := rom, cw := w, ptrBuf := p.ptrBuf, ptrPrev := p.ptrPrev, butNext := p.butNext
      sw := p.sw, sclk := p.sclk, disp := p.disp, b := p.b, d := p.d } ∧
    (State.resetWith p rom).mode = .cl1 ∧ (State.resetWith p rom).ptr = 0 ∧ (State.resetWith p rom).but = 0) ∧
  (∀ (p : ResetParams) (rom : Memory), Memory.read rom 0 = none →
    (State.resetWith p rom).fault = some ⟨.unimplementedMicroaddress, .microRom, 0, 0⟩) ∧
  State.reset = State.resetWith {} []

/-- The invariant holds after every reset whose ROM is in canonical form and whose in-flux latch holds two bits; and a
reset whose entry 0 leads into a set of addresses that run clean leaves a clean state, under any schedule of the
environment that evaluates no output, or under any schedule at all if the words are DatapathClean. -/
def Obligations.ResetMeetsTheInvariant : Prop :=
  State.reset.Inv ∧
  (∀ (p : ResetParams) (rom : Memory), Memory.wf rom = true → p.butNext.toNat < 4 → (State.resetWith p rom).Inv) ∧
  ∀ (p : ResetParams) (rom : Memory) (w0 : MicroWord) (addresses : List MicroAddr) (ms : List EnvMove),
    Memory.read rom 0 = some w0 → w0.prog ∈ addresses → w0.prog ||| 1 ∈ addresses → RunsClean rom addresses →
    p.butNext.toNat ≤ 1 →
    ((∀ e ∈ ms, e.quiet = true) ∨
      (datapathClean w0 = true ∧
        ∀ a ∈ addresses, ∀ w, Memory.read rom a.toNat = some w → datapathClean w = true)) →
    State.Clean addresses { State.resetWith p rom with moves := ms }

/-- Every step keeps the invariant: the current word is the ROM's entry at the pointer, the branch latches hold two bits,
the mode is not OFF, the ROM keeps its canonical form. -/
def Obligations.StepKeepsTheInvariant : Prop := ∀ s t : State, s.Inv → step s = .next t → t.Inv

/-- From every clean state the step answers a next state, without an abort, and that state is clean: whatever the next move
of the environment is, between any two cycles, evaluations included where the words are DatapathClean. So a run from a
clean state is safe, however long. It rests on the spec's own decisions D11 and, for cycles, D18 (log 15). -/
def Obligations.CleanProgramsRunSafely : Prop :=
  (∀ (addresses : List MicroAddr) (s : State), s.Clean addresses →
    ∃ t, step s = .next t ∧ t.fault = none ∧ t.Clean addresses) ∧
  ∀ (addresses : List MicroAddr) (s : State), s.Clean addresses → SafeRun s
end

