-- ==== Sys2Proof/Laws/Decode.lean ====
section
/-! SUPPORT. Laws of the packing and the decoder: a field as a number of a word, the packed word as a number, that every
value of a field's width has its row, and when a field decodes to a row. -/

namespace Sys2Proof

/-- A field of a word by division: shifted down and cut to its width. -/
theorem Field.read_eq (f : Field) (W : PackedWord) : f.read W = W.toNat / 2 ^ f.low % 2 ^ f.width := by
  simp [Field.read, BitVec.extractLsb'_toNat, Nat.shiftRight_eq_div_pow]

theorem implBit_eq (W : PackedWord) : implBit W = W.getLsbD 31 := rfl

/-- The packed word as a number: the fields do not overlap, so the OR of R64 is their sum. -/
theorem pack_toNat {w : MicroWord} (h : w.wf = true) :
    (pack w).toNat =
      2147483648 + w.clkf * 8388608 + w.dms * 2097152 + w.bms * 131072 + w.bcs * 8192 + w.brf * 256 + w.prog.toNat := by
  simp only [MicroWord.wf, Bool.and_eq_true, decide_eq_true_eq] at h
  have hp := w.prog.isLt
  have e1 := Nat.shiftLeft_add_eq_or_of_lt (i := 8) (b := w.prog.toNat) (by omega) w.brf
  have e2 := Nat.shiftLeft_add_eq_or_of_lt (i := 13) (b := w.brf <<< 8 + w.prog.toNat)
    (by simp only [Nat.shiftLeft_eq]; omega) w.bcs
  have e3 := Nat.shiftLeft_add_eq_or_of_lt (i := 17) (b := w.bcs <<< 13 + (w.brf <<< 8 + w.prog.toNat))
    (by simp only [Nat.shiftLeft_eq]; omega) w.bms
  have e4 := Nat.shiftLeft_add_eq_or_of_lt (i := 21)
    (b := w.bms <<< 17 + (w.bcs <<< 13 + (w.brf <<< 8 + w.prog.toNat))) (by simp only [Nat.shiftLeft_eq]; omega) w.dms
  have e5 := Nat.shiftLeft_add_eq_or_of_lt (i := 23)
    (b := w.dms <<< 21 + (w.bms <<< 17 + (w.bcs <<< 13 + (w.brf <<< 8 + w.prog.toNat))))
    (by simp only [Nat.shiftLeft_eq]; omega) w.clkf
  have e6 := Nat.shiftLeft_add_eq_or_of_lt (i := 31)
    (b := w.clkf <<< 23 + (w.dms <<< 21 + (w.bms <<< 17 + (w.bcs <<< 13 + (w.brf <<< 8 + w.prog.toNat)))))
    (by simp only [Nat.shiftLeft_eq]; omega) 1
  have hs : ∀ x k : Nat, x * 2 ^ k < 2 ^ 32 → (BitVec.ofNat 32 x <<< k).toNat = x <<< k := by
    intro x k hx
    have hk : 0 < 2 ^ k := Nat.pow_pos (by decide)
    have hx' : x < 2 ^ 32 := Nat.lt_of_le_of_lt (Nat.le_mul_of_pos_right x hk) hx
    rw [BitVec.toNat_shiftLeft, BitVec.toNat_ofNat, Nat.mod_eq_of_lt hx', Nat.shiftLeft_eq, Nat.mod_eq_of_lt hx]
  simp only [pack, BitVec.toNat_or, Nat.or_assoc]
  rw [hs 1 31 (by decide), hs w.clkf 23 (by omega), hs w.dms 21 (by omega), hs w.bms 17 (by omega),
    hs w.bcs 13 (by omega), hs w.brf 8 (by omega), BitVec.toNat_setWidth, Nat.mod_eq_of_lt (by omega),
    ← e1, ← e2, ← e3, ← e4, ← e5, ← e6]
  simp only [Nat.shiftLeft_eq]
  omega

/-- A field of an implemented word decodes to the row of its value. -/
theorem decodeField_of_row {f : Field} {W : PackedWord} {i : Instr} (hb : W.getLsbD 31 = true)
    (h : rowOf f (f.read W) = some i) : decodeField f W = .ok i := by
  unfold decodeField
  rw [implBit_eq, hb, if_pos rfl, h]

/-- A row a field decodes to is the row of the field's value in an implemented word. -/
theorem row_of_decodeField {f : Field} {W : PackedWord} {i : Instr} (hb : W.getLsbD 31 = true)
    (h : decodeField f W = .ok i) : rowOf f (f.read W) = some i := by
  unfold decodeField at h
  rw [implBit_eq, hb, if_pos rfl] at h
  cases hr : rowOf f (f.read W) <;> simp_all

/-- An unimplemented word has no fields but its flag. -/
theorem decodeField_of_unimplemented {f : Field} {W : PackedWord} (hb : W.getLsbD 31 = false) (hf : f ≠ .impl) :
    decodeField f W = .error .noFields := by
  unfold decodeField
  rw [implBit_eq, hb, if_neg (by decide)]
  cases f <;> first | rfl | exact absurd rfl hf

theorem bcRow_total {v : Nat} (h : v < 16) : ∃ i, bcRow v = some i ∧ i.field = .bcs ∧ i.value = v := by
  interval_cases v <;> exact ⟨_, rfl, rfl, rfl⟩

theorem bmlRow_total {v : Nat} (h : v < 4) : ∃ i, bmlRow v = some i ∧ i.field = .bml ∧ i.value = v := by
  interval_cases v <;> exact ⟨_, rfl, rfl, rfl⟩

theorem bmhRow_total {v : Nat} (h : v < 4) : ∃ i, bmhRow v = some i ∧ i.field = .bmh ∧ i.value = v := by
  interval_cases v <;> exact ⟨_, rfl, rfl, rfl⟩

theorem dmRow_total {v : Nat} (h : v < 4) : ∃ i, dmRow v = some i ∧ i.field = .dms ∧ i.value = v := by
  interval_cases v <;> exact ⟨_, rfl, rfl, rfl⟩

theorem butRow_total {v : Nat} (h : v < 32) : ∃ i, butRow v = some i ∧ i.field = .brf ∧ i.value = v := by
  interval_cases v <;> exact ⟨_, rfl, rfl, rfl⟩

theorem clkRow_total {v : Nat} (h : v < 8) : ∃ i, clkRow v = some i ∧ i.field = .clkf ∧ i.value = v := by
  interval_cases v <;> exact ⟨_, rfl, rfl, rfl⟩

/-- The record an implemented word spells. -/
theorem unpack_of_implemented {W : PackedWord} (hb : W.getLsbD 31 = true) :
    unpack W = some
      { prog := W.extractLsb' 0 8, brf := Field.brf.read W, bcs := Field.bcs.read W,
        bms := (W.extractLsb' 17 4).toNat, dms := Field.dms.read W, clkf := Field.clkf.read W } := by
  unfold unpack
  rw [implBit_eq, hb]
  rfl

theorem unpack_of_unimplemented {W : PackedWord} (hb : W.getLsbD 31 = false) : unpack W = none := by
  unfold unpack
  rw [implBit_eq, hb]
  rfl

/-- The two halves of BMS (30_encoding.md R65). -/
theorem bms_split (W : PackedWord) :
    (W.extractLsb' 17 4).toNat % 4 = Field.bml.read W ∧ (W.extractLsb' 17 4).toNat / 4 = Field.bmh.read W := by
  rw [Field.read_eq, Field.read_eq]
  simp only [BitVec.extractLsb'_toNat, Nat.shiftRight_eq_div_pow, Field.low, Field.width]
  omega

end Sys2Proof
end

