-- ==== Sys2Proof/Laws/Operands.lean ====
section
/-! SUPPORT. Laws of the operand forms: the bytes of a joined value, the bits of the shift, the zero test; and what each
read port shows. -/

namespace Sys2Proof.Machine

@[simp] theorem lowByte_joinBytes (hi lo : Byte) : lowByte (joinBytes hi lo) = lo := by
  apply BitVec.eq_of_getLsbD_eq
  intro i h
  have h1 : i < 16 := by omega
  simp [lowByte, joinBytes, h, h1]

@[simp] theorem highByte_joinBytes (hi lo : Byte) : highByte (joinBytes hi lo) = hi := by
  apply BitVec.eq_of_getLsbD_eq
  intro i h
  have h1 : 8 + i < 16 := by omega
  simp [highByte, joinBytes, h, h1]

@[simp] theorem joinBytes_self (v : Word) : joinBytes (highByte v) (lowByte v) = v := by
  apply BitVec.eq_of_getLsbD_eq
  intro i h
  by_cases h8 : i < 8
  · simp [highByte, lowByte, joinBytes, h, h8]
  · have h2 : i - 8 < 8 := by omega
    have h3 : 8 + (i - 8) = i := by omega
    simp [highByte, lowByte, joinBytes, h, h8, h2, h3]

/-- Bit 15 of the shifted value is the carry-in. -/
theorem shiftRightWithCarry_top (ci : Bool) (d : Word) : (shiftRightWithCarry ci d).getLsbD 15 = ci := by
  simp [shiftRightWithCarry]

/-- Every other bit comes from one place above. -/
theorem shiftRightWithCarry_bit (ci : Bool) (d : Word) (i : Nat) (h : i < 15) :
    (shiftRightWithCarry ci d).getLsbD i = d.getLsbD (i + 1) := by
  have h1 : i < 16 := by omega
  simp [shiftRightWithCarry, h, h1, Nat.add_comm]

theorem dIsZero_iff (d : Word) : dIsZero d = true ↔ d = 0 := by simp [dIsZero]

@[simp] theorem readPorts_ptr (s : State) : s.readPorts.ptr = s.ptr := rfl
@[simp] theorem readPorts_ptrBuf (s : State) : s.readPorts.ptrBuf = s.ptrBuf := rfl
@[simp] theorem readPorts_ptrPrev (s : State) : s.readPorts.ptrPrev = s.ptrPrev := rfl
@[simp] theorem readPorts_mode (s : State) : s.readPorts.mode = s.mode := rfl
@[simp] theorem readPorts_disp (s : State) : s.readPorts.disp = s.disp := rfl
@[simp] theorem readPorts_rom (s : State) : s.readPorts.rom = s.rom := rfl

end Sys2Proof.Machine
end

