-- ==== Sys2Proof/Laws/State.lean ====
section
/-! SUPPORT. What each named update of the state leaves in each field: one lemma per field per update. -/

namespace Sys2Proof.Machine

@[simp] theorem raise_mode (c : AbortCause) (s : State) : (raise c s).mode = s.mode := rfl
@[simp] theorem raise_cw (c : AbortCause) (s : State) : (raise c s).cw = s.cw := rfl
@[simp] theorem raise_ptr (c : AbortCause) (s : State) : (raise c s).ptr = s.ptr := rfl
@[simp] theorem raise_ptrBuf (c : AbortCause) (s : State) : (raise c s).ptrBuf = s.ptrBuf := rfl
@[simp] theorem raise_ptrPrev (c : AbortCause) (s : State) : (raise c s).ptrPrev = s.ptrPrev := rfl
@[simp] theorem raise_but (c : AbortCause) (s : State) : (raise c s).but = s.but := rfl
@[simp] theorem raise_butNext (c : AbortCause) (s : State) : (raise c s).butNext = s.butNext := rfl
@[simp] theorem raise_sw (c : AbortCause) (s : State) : (raise c s).sw = s.sw := rfl
@[simp] theorem raise_sclk (c : AbortCause) (s : State) : (raise c s).sclk = s.sclk := rfl
@[simp] theorem raise_disp (c : AbortCause) (s : State) : (raise c s).disp = s.disp := rfl
@[simp] theorem raise_b (c : AbortCause) (s : State) : (raise c s).b = s.b := rfl
@[simp] theorem raise_d (c : AbortCause) (s : State) : (raise c s).d = s.d := rfl
@[simp] theorem raise_fault (c : AbortCause) (s : State) : (raise c s).fault = some ⟨c.kind, c.component, c.value, s.ptr⟩ := rfl
@[simp] theorem raise_rom (c : AbortCause) (s : State) : (raise c s).rom = s.rom := rfl
@[simp] theorem raise_busRd (c : AbortCause) (s : State) : (raise c s).busRd = s.busRd := rfl
@[simp] theorem raise_unibus (c : AbortCause) (s : State) : (raise c s).unibus = s.unibus := rfl
@[simp] theorem raise_carryIn (c : AbortCause) (s : State) : (raise c s).carryIn = s.carryIn := rfl
@[simp] theorem raise_bcOut (c : AbortCause) (s : State) : (raise c s).bcOut = s.bcOut := rfl
@[simp] theorem raise_bmuxOut (c : AbortCause) (s : State) : (raise c s).bmuxOut = s.bmuxOut := rfl
@[simp] theorem raise_dmuxOut (c : AbortCause) (s : State) : (raise c s).dmuxOut = s.dmuxOut := rfl
@[simp] theorem raise_moves (c : AbortCause) (s : State) : (raise c s).moves = s.moves := rfl
@[simp] theorem raise_draws (c : AbortCause) (s : State) : (raise c s).draws = s.draws := rfl

@[simp] theorem latchPointers_mode (a : MicroAddr) (s : State) : (latchPointers a s).mode = s.mode := rfl
@[simp] theorem latchPointers_cw (a : MicroAddr) (s : State) : (latchPointers a s).cw = s.cw := rfl
@[simp] theorem latchPointers_ptr (a : MicroAddr) (s : State) : (latchPointers a s).ptr = a := rfl
@[simp] theorem latchPointers_ptrBuf (a : MicroAddr) (s : State) : (latchPointers a s).ptrBuf = a := rfl
@[simp] theorem latchPointers_ptrPrev (a : MicroAddr) (s : State) : (latchPointers a s).ptrPrev = s.ptr := rfl
@[simp] theorem latchPointers_but (a : MicroAddr) (s : State) : (latchPointers a s).but = s.but := rfl
@[simp] theorem latchPointers_butNext (a : MicroAddr) (s : State) : (latchPointers a s).butNext = s.butNext := rfl
@[simp] theorem latchPointers_sw (a : MicroAddr) (s : State) : (latchPointers a s).sw = s.sw := rfl
@[simp] theorem latchPointers_sclk (a : MicroAddr) (s : State) : (latchPointers a s).sclk = s.sclk := rfl
@[simp] theorem latchPointers_disp (a : MicroAddr) (s : State) : (latchPointers a s).disp = s.disp := rfl
@[simp] theorem latchPointers_b (a : MicroAddr) (s : State) : (latchPointers a s).b = s.b := rfl
@[simp] theorem latchPointers_d (a : MicroAddr) (s : State) : (latchPointers a s).d = s.d := rfl
@[simp] theorem latchPointers_fault (a : MicroAddr) (s : State) : (latchPointers a s).fault = s.fault := rfl
@[simp] theorem latchPointers_rom (a : MicroAddr) (s : State) : (latchPointers a s).rom = s.rom := rfl
@[simp] theorem latchPointers_busRd (a : MicroAddr) (s : State) : (latchPointers a s).busRd = s.busRd := rfl
@[simp] theorem latchPointers_unibus (a : MicroAddr) (s : State) : (latchPointers a s).unibus = s.unibus := rfl
@[simp] theorem latchPointers_carryIn (a : MicroAddr) (s : State) : (latchPointers a s).carryIn = s.carryIn := rfl
@[simp] theorem latchPointers_bcOut (a : MicroAddr) (s : State) : (latchPointers a s).bcOut = s.bcOut := rfl
@[simp] theorem latchPointers_bmuxOut (a : MicroAddr) (s : State) : (latchPointers a s).bmuxOut = s.bmuxOut := rfl
@[simp] theorem latchPointers_dmuxOut (a : MicroAddr) (s : State) : (latchPointers a s).dmuxOut = s.dmuxOut := rfl
@[simp] theorem latchPointers_moves (a : MicroAddr) (s : State) : (latchPointers a s).moves = s.moves := rfl
@[simp] theorem latchPointers_draws (a : MicroAddr) (s : State) : (latchPointers a s).draws = s.draws := rfl

@[simp] theorem latchWord_mode (w : MicroWord) (s : State) : (latchWord w s).mode = s.mode := rfl
@[simp] theorem latchWord_cw (w : MicroWord) (s : State) : (latchWord w s).cw = w := rfl
@[simp] theorem latchWord_ptr (w : MicroWord) (s : State) : (latchWord w s).ptr = s.ptr := rfl
@[simp] theorem latchWord_ptrBuf (w : MicroWord) (s : State) : (latchWord w s).ptrBuf = s.ptrBuf := rfl
@[simp] theorem latchWord_ptrPrev (w : MicroWord) (s : State) : (latchWord w s).ptrPrev = s.ptrPrev := rfl
@[simp] theorem latchWord_but (w : MicroWord) (s : State) : (latchWord w s).but = s.but := rfl
@[simp] theorem latchWord_butNext (w : MicroWord) (s : State) : (latchWord w s).butNext = s.butNext := rfl
@[simp] theorem latchWord_sw (w : MicroWord) (s : State) : (latchWord w s).sw = s.sw := rfl
@[simp] theorem latchWord_sclk (w : MicroWord) (s : State) : (latchWord w s).sclk = s.sclk := rfl
@[simp] theorem latchWord_disp (w : MicroWord) (s : State) : (latchWord w s).disp = s.disp := rfl
@[simp] theorem latchWord_b (w : MicroWord) (s : State) : (latchWord w s).b = s.b := rfl
@[simp] theorem latchWord_d (w : MicroWord) (s : State) : (latchWord w s).d = s.d := rfl
@[simp] theorem latchWord_fault (w : MicroWord) (s : State) : (latchWord w s).fault = s.fault := rfl
@[simp] theorem latchWord_rom (w : MicroWord) (s : State) : (latchWord w s).rom = s.rom := rfl
@[simp] theorem latchWord_busRd (w : MicroWord) (s : State) : (latchWord w s).busRd = s.busRd := rfl
@[simp] theorem latchWord_unibus (w : MicroWord) (s : State) : (latchWord w s).unibus = s.unibus := rfl
@[simp] theorem latchWord_carryIn (w : MicroWord) (s : State) : (latchWord w s).carryIn = s.carryIn := rfl
@[simp] theorem latchWord_bcOut (w : MicroWord) (s : State) : (latchWord w s).bcOut = s.bcOut := rfl
@[simp] theorem latchWord_bmuxOut (w : MicroWord) (s : State) : (latchWord w s).bmuxOut = s.bmuxOut := rfl
@[simp] theorem latchWord_dmuxOut (w : MicroWord) (s : State) : (latchWord w s).dmuxOut = s.dmuxOut := rfl
@[simp] theorem latchWord_moves (w : MicroWord) (s : State) : (latchWord w s).moves = s.moves := rfl
@[simp] theorem latchWord_draws (w : MicroWord) (s : State) : (latchWord w s).draws = s.draws := rfl

@[simp] theorem advanceBranch_mode (s : State) : (advanceBranch s).mode = s.mode := rfl
@[simp] theorem advanceBranch_cw (s : State) : (advanceBranch s).cw = s.cw := rfl
@[simp] theorem advanceBranch_ptr (s : State) : (advanceBranch s).ptr = s.ptr := rfl
@[simp] theorem advanceBranch_ptrBuf (s : State) : (advanceBranch s).ptrBuf = s.ptrBuf := rfl
@[simp] theorem advanceBranch_ptrPrev (s : State) : (advanceBranch s).ptrPrev = s.ptrPrev := rfl
@[simp] theorem advanceBranch_but (s : State) : (advanceBranch s).but = s.butNext := rfl
@[simp] theorem advanceBranch_butNext (s : State) : (advanceBranch s).butNext = s.butNext := rfl
@[simp] theorem advanceBranch_sw (s : State) : (advanceBranch s).sw = s.sw := rfl
@[simp] theorem advanceBranch_sclk (s : State) : (advanceBranch s).sclk = s.sclk := rfl
@[simp] theorem advanceBranch_disp (s : State) : (advanceBranch s).disp = s.disp := rfl
@[simp] theorem advanceBranch_b (s : State) : (advanceBranch s).b = s.b := rfl
@[simp] theorem advanceBranch_d (s : State) : (advanceBranch s).d = s.d := rfl
@[simp] theorem advanceBranch_fault (s : State) : (advanceBranch s).fault = s.fault := rfl
@[simp] theorem advanceBranch_rom (s : State) : (advanceBranch s).rom = s.rom := rfl
@[simp] theorem advanceBranch_busRd (s : State) : (advanceBranch s).busRd = s.busRd := rfl
@[simp] theorem advanceBranch_unibus (s : State) : (advanceBranch s).unibus = s.unibus := rfl
@[simp] theorem advanceBranch_carryIn (s : State) : (advanceBranch s).carryIn = s.carryIn := rfl
@[simp] theorem advanceBranch_bcOut (s : State) : (advanceBranch s).bcOut = s.bcOut := rfl
@[simp] theorem advanceBranch_bmuxOut (s : State) : (advanceBranch s).bmuxOut = s.bmuxOut := rfl
@[simp] theorem advanceBranch_dmuxOut (s : State) : (advanceBranch s).dmuxOut = s.dmuxOut := rfl
@[simp] theorem advanceBranch_moves (s : State) : (advanceBranch s).moves = s.moves := rfl
@[simp] theorem advanceBranch_draws (s : State) : (advanceBranch s).draws = s.draws := rfl

@[simp] theorem latchBranch_mode (e : Byte) (s : State) : (latchBranch e s).mode = s.mode := rfl
@[simp] theorem latchBranch_cw (e : Byte) (s : State) : (latchBranch e s).cw = s.cw := rfl
@[simp] theorem latchBranch_ptr (e : Byte) (s : State) : (latchBranch e s).ptr = s.ptr := rfl
@[simp] theorem latchBranch_ptrBuf (e : Byte) (s : State) : (latchBranch e s).ptrBuf = s.ptrBuf := rfl
@[simp] theorem latchBranch_ptrPrev (e : Byte) (s : State) : (latchBranch e s).ptrPrev = s.ptrPrev := rfl
@[simp] theorem latchBranch_but (e : Byte) (s : State) : (latchBranch e s).but = s.but := rfl
@[simp] theorem latchBranch_butNext (e : Byte) (s : State) : (latchBranch e s).butNext = e := rfl
@[simp] theorem latchBranch_sw (e : Byte) (s : State) : (latchBranch e s).sw = s.sw := rfl
@[simp] theorem latchBranch_sclk (e : Byte) (s : State) : (latchBranch e s).sclk = s.sclk := rfl
@[simp] theorem latchBranch_disp (e : Byte) (s : State) : (latchBranch e s).disp = s.disp := rfl
@[simp] theorem latchBranch_b (e : Byte) (s : State) : (latchBranch e s).b = s.b := rfl
@[simp] theorem latchBranch_d (e : Byte) (s : State) : (latchBranch e s).d = s.d := rfl
@[simp] theorem latchBranch_fault (e : Byte) (s : State) : (latchBranch e s).fault = s.fault := rfl
@[simp] theorem latchBranch_rom (e : Byte) (s : State) : (latchBranch e s).rom = s.rom := rfl
@[simp] theorem latchBranch_busRd (e : Byte) (s : State) : (latchBranch e s).busRd = s.busRd := rfl
@[simp] theorem latchBranch_unibus (e : Byte) (s : State) : (latchBranch e s).unibus = s.unibus := rfl
@[simp] theorem latchBranch_carryIn (e : Byte) (s : State) : (latchBranch e s).carryIn = s.carryIn := rfl
@[simp] theorem latchBranch_bcOut (e : Byte) (s : State) : (latchBranch e s).bcOut = s.bcOut := rfl
@[simp] theorem latchBranch_bmuxOut (e : Byte) (s : State) : (latchBranch e s).bmuxOut = s.bmuxOut := rfl
@[simp] theorem latchBranch_dmuxOut (e : Byte) (s : State) : (latchBranch e s).dmuxOut = s.dmuxOut := rfl
@[simp] theorem latchBranch_moves (e : Byte) (s : State) : (latchBranch e s).moves = s.moves := rfl
@[simp] theorem latchBranch_draws (e : Byte) (s : State) : (latchBranch e s).draws = s.draws := rfl

@[simp] theorem latchDisplay_mode (s : State) : (latchDisplay s).mode = s.mode := rfl
@[simp] theorem latchDisplay_cw (s : State) : (latchDisplay s).cw = s.cw := rfl
@[simp] theorem latchDisplay_ptr (s : State) : (latchDisplay s).ptr = s.ptr := rfl
@[simp] theorem latchDisplay_ptrBuf (s : State) : (latchDisplay s).ptrBuf = s.ptrBuf := rfl
@[simp] theorem latchDisplay_ptrPrev (s : State) : (latchDisplay s).ptrPrev = s.ptrPrev := rfl
@[simp] theorem latchDisplay_but (s : State) : (latchDisplay s).but = s.but := rfl
@[simp] theorem latchDisplay_butNext (s : State) : (latchDisplay s).butNext = s.butNext := rfl
@[simp] theorem latchDisplay_sw (s : State) : (latchDisplay s).sw = s.sw := rfl
@[simp] theorem latchDisplay_sclk (s : State) : (latchDisplay s).sclk = s.sclk := rfl
@[simp] theorem latchDisplay_disp (s : State) : (latchDisplay s).disp = Config.displaySrc s.displayInputs := rfl
@[simp] theorem latchDisplay_b (s : State) : (latchDisplay s).b = s.b := rfl
@[simp] theorem latchDisplay_d (s : State) : (latchDisplay s).d = s.d := rfl
@[simp] theorem latchDisplay_fault (s : State) : (latchDisplay s).fault = s.fault := rfl
@[simp] theorem latchDisplay_rom (s : State) : (latchDisplay s).rom = s.rom := rfl
@[simp] theorem latchDisplay_busRd (s : State) : (latchDisplay s).busRd = s.busRd := rfl
@[simp] theorem latchDisplay_unibus (s : State) : (latchDisplay s).unibus = s.unibus := rfl
@[simp] theorem latchDisplay_carryIn (s : State) : (latchDisplay s).carryIn = s.carryIn := rfl
@[simp] theorem latchDisplay_bcOut (s : State) : (latchDisplay s).bcOut = s.bcOut := rfl
@[simp] theorem latchDisplay_bmuxOut (s : State) : (latchDisplay s).bmuxOut = s.bmuxOut := rfl
@[simp] theorem latchDisplay_dmuxOut (s : State) : (latchDisplay s).dmuxOut = s.dmuxOut := rfl
@[simp] theorem latchDisplay_moves (s : State) : (latchDisplay s).moves = s.moves := rfl
@[simp] theorem latchDisplay_draws (s : State) : (latchDisplay s).draws = s.draws + 1 := rfl

@[simp] theorem setMode_mode (m : ClockMode) (s : State) : (setMode m s).mode = m := rfl
@[simp] theorem setMode_cw (m : ClockMode) (s : State) : (setMode m s).cw = s.cw := rfl
@[simp] theorem setMode_ptr (m : ClockMode) (s : State) : (setMode m s).ptr = s.ptr := rfl
@[simp] theorem setMode_ptrBuf (m : ClockMode) (s : State) : (setMode m s).ptrBuf = s.ptrBuf := rfl
@[simp] theorem setMode_ptrPrev (m : ClockMode) (s : State) : (setMode m s).ptrPrev = s.ptrPrev := rfl
@[simp] theorem setMode_but (m : ClockMode) (s : State) : (setMode m s).but = s.but := rfl
@[simp] theorem setMode_butNext (m : ClockMode) (s : State) : (setMode m s).butNext = s.butNext := rfl
@[simp] theorem setMode_sw (m : ClockMode) (s : State) : (setMode m s).sw = s.sw := rfl
@[simp] theorem setMode_sclk (m : ClockMode) (s : State) : (setMode m s).sclk = s.sclk := rfl
@[simp] theorem setMode_disp (m : ClockMode) (s : State) : (setMode m s).disp = s.disp := rfl
@[simp] theorem setMode_b (m : ClockMode) (s : State) : (setMode m s).b = s.b := rfl
@[simp] theorem setMode_d (m : ClockMode) (s : State) : (setMode m s).d = s.d := rfl
@[simp] theorem setMode_fault (m : ClockMode) (s : State) : (setMode m s).fault = s.fault := rfl
@[simp] theorem setMode_rom (m : ClockMode) (s : State) : (setMode m s).rom = s.rom := rfl
@[simp] theorem setMode_busRd (m : ClockMode) (s : State) : (setMode m s).busRd = s.busRd := rfl
@[simp] theorem setMode_unibus (m : ClockMode) (s : State) : (setMode m s).unibus = s.unibus := rfl
@[simp] theorem setMode_carryIn (m : ClockMode) (s : State) : (setMode m s).carryIn = s.carryIn := rfl
@[simp] theorem setMode_bcOut (m : ClockMode) (s : State) : (setMode m s).bcOut = s.bcOut := rfl
@[simp] theorem setMode_bmuxOut (m : ClockMode) (s : State) : (setMode m s).bmuxOut = s.bmuxOut := rfl
@[simp] theorem setMode_dmuxOut (m : ClockMode) (s : State) : (setMode m s).dmuxOut = s.dmuxOut := rfl
@[simp] theorem setMode_moves (m : ClockMode) (s : State) : (setMode m s).moves = s.moves := rfl
@[simp] theorem setMode_draws (m : ClockMode) (s : State) : (setMode m s).draws = s.draws := rfl

@[simp] theorem writeSwitch_mode (x : Bool) (s : State) : (writeSwitch x s).mode = s.mode := rfl
@[simp] theorem writeSwitch_cw (x : Bool) (s : State) : (writeSwitch x s).cw = s.cw := rfl
@[simp] theorem writeSwitch_ptr (x : Bool) (s : State) : (writeSwitch x s).ptr = s.ptr := rfl
@[simp] theorem writeSwitch_ptrBuf (x : Bool) (s : State) : (writeSwitch x s).ptrBuf = s.ptrBuf := rfl
@[simp] theorem writeSwitch_ptrPrev (x : Bool) (s : State) : (writeSwitch x s).ptrPrev = s.ptrPrev := rfl
@[simp] theorem writeSwitch_but (x : Bool) (s : State) : (writeSwitch x s).but = s.but := rfl
@[simp] theorem writeSwitch_butNext (x : Bool) (s : State) : (writeSwitch x s).butNext = s.butNext := rfl
@[simp] theorem writeSwitch_sw (x : Bool) (s : State) : (writeSwitch x s).sw = x := rfl
@[simp] theorem writeSwitch_sclk (x : Bool) (s : State) : (writeSwitch x s).sclk = s.sclk := rfl
@[simp] theorem writeSwitch_disp (x : Bool) (s : State) : (writeSwitch x s).disp = s.disp := rfl
@[simp] theorem writeSwitch_b (x : Bool) (s : State) : (writeSwitch x s).b = s.b := rfl
@[simp] theorem writeSwitch_d (x : Bool) (s : State) : (writeSwitch x s).d = s.d := rfl
@[simp] theorem writeSwitch_fault (x : Bool) (s : State) : (writeSwitch x s).fault = s.fault := rfl
@[simp] theorem writeSwitch_rom (x : Bool) (s : State) : (writeSwitch x s).rom = s.rom := rfl
@[simp] theorem writeSwitch_busRd (x : Bool) (s : State) : (writeSwitch x s).busRd = s.busRd := rfl
@[simp] theorem writeSwitch_unibus (x : Bool) (s : State) : (writeSwitch x s).unibus = s.unibus := rfl
@[simp] theorem writeSwitch_carryIn (x : Bool) (s : State) : (writeSwitch x s).carryIn = s.carryIn := rfl
@[simp] theorem writeSwitch_bcOut (x : Bool) (s : State) : (writeSwitch x s).bcOut = s.bcOut := rfl
@[simp] theorem writeSwitch_bmuxOut (x : Bool) (s : State) : (writeSwitch x s).bmuxOut = s.bmuxOut := rfl
@[simp] theorem writeSwitch_dmuxOut (x : Bool) (s : State) : (writeSwitch x s).dmuxOut = s.dmuxOut := rfl
@[simp] theorem writeSwitch_moves (x : Bool) (s : State) : (writeSwitch x s).moves = s.moves := rfl
@[simp] theorem writeSwitch_draws (x : Bool) (s : State) : (writeSwitch x s).draws = s.draws := rfl

@[simp] theorem driveInputs_mode (r u : Word) (c : Bool) (s : State) : (driveInputs r u c s).mode = s.mode := rfl
@[simp] theorem driveInputs_cw (r u : Word) (c : Bool) (s : State) : (driveInputs r u c s).cw = s.cw := rfl
@[simp] theorem driveInputs_ptr (r u : Word) (c : Bool) (s : State) : (driveInputs r u c s).ptr = s.ptr := rfl
@[simp] theorem driveInputs_ptrBuf (r u : Word) (c : Bool) (s : State) : (driveInputs r u c s).ptrBuf = s.ptrBuf := rfl
@[simp] theorem driveInputs_ptrPrev (r u : Word) (c : Bool) (s : State) : (driveInputs r u c s).ptrPrev = s.ptrPrev := rfl
@[simp] theorem driveInputs_but (r u : Word) (c : Bool) (s : State) : (driveInputs r u c s).but = s.but := rfl
@[simp] theorem driveInputs_butNext (r u : Word) (c : Bool) (s : State) : (driveInputs r u c s).butNext = s.butNext := rfl
@[simp] theorem driveInputs_sw (r u : Word) (c : Bool) (s : State) : (driveInputs r u c s).sw = s.sw := rfl
@[simp] theorem driveInputs_sclk (r u : Word) (c : Bool) (s : State) : (driveInputs r u c s).sclk = s.sclk := rfl
@[simp] theorem driveInputs_disp (r u : Word) (c : Bool) (s : State) : (driveInputs r u c s).disp = s.disp := rfl
@[simp] theorem driveInputs_b (r u : Word) (c : Bool) (s : State) : (driveInputs r u c s).b = s.b := rfl
@[simp] theorem driveInputs_d (r u : Word) (c : Bool) (s : State) : (driveInputs r u c s).d = s.d := rfl
@[simp] theorem driveInputs_fault (r u : Word) (c : Bool) (s : State) : (driveInputs r u c s).fault = s.fault := rfl
@[simp] theorem driveInputs_rom (r u : Word) (c : Bool) (s : State) : (driveInputs r u c s).rom = s.rom := rfl
@[simp] theorem driveInputs_busRd (r u : Word) (c : Bool) (s : State) : (driveInputs r u c s).busRd = r := rfl
@[simp] theorem driveInputs_unibus (r u : Word) (c : Bool) (s : State) : (driveInputs r u c s).unibus = u := rfl
@[simp] theorem driveInputs_carryIn (r u : Word) (c : Bool) (s : State) : (driveInputs r u c s).carryIn = c := rfl
@[simp] theorem driveInputs_bcOut (r u : Word) (c : Bool) (s : State) : (driveInputs r u c s).bcOut = s.bcOut := rfl
@[simp] theorem driveInputs_bmuxOut (r u : Word) (c : Bool) (s : State) : (driveInputs r u c s).bmuxOut = s.bmuxOut := rfl
@[simp] theorem driveInputs_dmuxOut (r u : Word) (c : Bool) (s : State) : (driveInputs r u c s).dmuxOut = s.dmuxOut := rfl
@[simp] theorem driveInputs_moves (r u : Word) (c : Bool) (s : State) : (driveInputs r u c s).moves = s.moves := rfl
@[simp] theorem driveInputs_draws (r u : Word) (c : Bool) (s : State) : (driveInputs r u c s).draws = s.draws := rfl

@[simp] theorem setBcOut_mode (v : Word) (s : State) : (setBcOut v s).mode = s.mode := rfl
@[simp] theorem setBcOut_cw (v : Word) (s : State) : (setBcOut v s).cw = s.cw := rfl
@[simp] theorem setBcOut_ptr (v : Word) (s : State) : (setBcOut v s).ptr = s.ptr := rfl
@[simp] theorem setBcOut_ptrBuf (v : Word) (s : State) : (setBcOut v s).ptrBuf = s.ptrBuf := rfl
@[simp] theorem setBcOut_ptrPrev (v : Word) (s : State) : (setBcOut v s).ptrPrev = s.ptrPrev := rfl
@[simp] theorem setBcOut_but (v : Word) (s : State) : (setBcOut v s).but = s.but := rfl
@[simp] theorem setBcOut_butNext (v : Word) (s : State) : (setBcOut v s).butNext = s.butNext := rfl
@[simp] theorem setBcOut_sw (v : Word) (s : State) : (setBcOut v s).sw = s.sw := rfl
@[simp] theorem setBcOut_sclk (v : Word) (s : State) : (setBcOut v s).sclk = s.sclk := rfl
@[simp] theorem setBcOut_disp (v : Word) (s : State) : (setBcOut v s).disp = s.disp := rfl
@[simp] theorem setBcOut_b (v : Word) (s : State) : (setBcOut v s).b = s.b := rfl
@[simp] theorem setBcOut_d (v : Word) (s : State) : (setBcOut v s).d = s.d := rfl
@[simp] theorem setBcOut_fault (v : Word) (s : State) : (setBcOut v s).fault = s.fault := rfl
@[simp] theorem setBcOut_rom (v : Word) (s : State) : (setBcOut v s).rom = s.rom := rfl
@[simp] theorem setBcOut_busRd (v : Word) (s : State) : (setBcOut v s).busRd = s.busRd := rfl
@[simp] theorem setBcOut_unibus (v : Word) (s : State) : (setBcOut v s).unibus = s.unibus := rfl
@[simp] theorem setBcOut_carryIn (v : Word) (s : State) : (setBcOut v s).carryIn = s.carryIn := rfl
@[simp] theorem setBcOut_bcOut (v : Word) (s : State) : (setBcOut v s).bcOut = v := rfl
@[simp] theorem setBcOut_bmuxOut (v : Word) (s : State) : (setBcOut v s).bmuxOut = s.bmuxOut := rfl
@[simp] theorem setBcOut_dmuxOut (v : Word) (s : State) : (setBcOut v s).dmuxOut = s.dmuxOut := rfl
@[simp] theorem setBcOut_moves (v : Word) (s : State) : (setBcOut v s).moves = s.moves := rfl
@[simp] theorem setBcOut_draws (v : Word) (s : State) : (setBcOut v s).draws = s.draws := rfl

@[simp] theorem setBmuxLow_mode (x : Byte) (s : State) : (setBmuxLow x s).mode = s.mode := rfl
@[simp] theorem setBmuxLow_cw (x : Byte) (s : State) : (setBmuxLow x s).cw = s.cw := rfl
@[simp] theorem setBmuxLow_ptr (x : Byte) (s : State) : (setBmuxLow x s).ptr = s.ptr := rfl
@[simp] theorem setBmuxLow_ptrBuf (x : Byte) (s : State) : (setBmuxLow x s).ptrBuf = s.ptrBuf := rfl
@[simp] theorem setBmuxLow_ptrPrev (x : Byte) (s : State) : (setBmuxLow x s).ptrPrev = s.ptrPrev := rfl
@[simp] theorem setBmuxLow_but (x : Byte) (s : State) : (setBmuxLow x s).but = s.but := rfl
@[simp] theorem setBmuxLow_butNext (x : Byte) (s : State) : (setBmuxLow x s).butNext = s.butNext := rfl
@[simp] theorem setBmuxLow_sw (x : Byte) (s : State) : (setBmuxLow x s).sw = s.sw := rfl
@[simp] theorem setBmuxLow_sclk (x : Byte) (s : State) : (setBmuxLow x s).sclk = s.sclk := rfl
@[simp] theorem setBmuxLow_disp (x : Byte) (s : State) : (setBmuxLow x s).disp = s.disp := rfl
@[simp] theorem setBmuxLow_b (x : Byte) (s : State) : (setBmuxLow x s).b = s.b := rfl
@[simp] theorem setBmuxLow_d (x : Byte) (s : State) : (setBmuxLow x s).d = s.d := rfl
@[simp] theorem setBmuxLow_fault (x : Byte) (s : State) : (setBmuxLow x s).fault = s.fault := rfl
@[simp] theorem setBmuxLow_rom (x : Byte) (s : State) : (setBmuxLow x s).rom = s.rom := rfl
@[simp] theorem setBmuxLow_busRd (x : Byte) (s : State) : (setBmuxLow x s).busRd = s.busRd := rfl
@[simp] theorem setBmuxLow_unibus (x : Byte) (s : State) : (setBmuxLow x s).unibus = s.unibus := rfl
@[simp] theorem setBmuxLow_carryIn (x : Byte) (s : State) : (setBmuxLow x s).carryIn = s.carryIn := rfl
@[simp] theorem setBmuxLow_bcOut (x : Byte) (s : State) : (setBmuxLow x s).bcOut = s.bcOut := rfl
@[simp] theorem setBmuxLow_bmuxOut (x : Byte) (s : State) : (setBmuxLow x s).bmuxOut = joinBytes (highByte s.bmuxOut) x := rfl
@[simp] theorem setBmuxLow_dmuxOut (x : Byte) (s : State) : (setBmuxLow x s).dmuxOut = s.dmuxOut := rfl
@[simp] theorem setBmuxLow_moves (x : Byte) (s : State) : (setBmuxLow x s).moves = s.moves := rfl
@[simp] theorem setBmuxLow_draws (x : Byte) (s : State) : (setBmuxLow x s).draws = s.draws := rfl

@[simp] theorem setBmuxHigh_mode (x : Byte) (s : State) : (setBmuxHigh x s).mode = s.mode := rfl
@[simp] theorem setBmuxHigh_cw (x : Byte) (s : State) : (setBmuxHigh x s).cw = s.cw := rfl
@[simp] theorem setBmuxHigh_ptr (x : Byte) (s : State) : (setBmuxHigh x s).ptr = s.ptr := rfl
@[simp] theorem setBmuxHigh_ptrBuf (x : Byte) (s : State) : (setBmuxHigh x s).ptrBuf = s.ptrBuf := rfl
@[simp] theorem setBmuxHigh_ptrPrev (x : Byte) (s : State) : (setBmuxHigh x s).ptrPrev = s.ptrPrev := rfl
@[simp] theorem setBmuxHigh_but (x : Byte) (s : State) : (setBmuxHigh x s).but = s.but := rfl
@[simp] theorem setBmuxHigh_butNext (x : Byte) (s : State) : (setBmuxHigh x s).butNext = s.butNext := rfl
@[simp] theorem setBmuxHigh_sw (x : Byte) (s : State) : (setBmuxHigh x s).sw = s.sw := rfl
@[simp] theorem setBmuxHigh_sclk (x : Byte) (s : State) : (setBmuxHigh x s).sclk = s.sclk := rfl
@[simp] theorem setBmuxHigh_disp (x : Byte) (s : State) : (setBmuxHigh x s).disp = s.disp := rfl
@[simp] theorem setBmuxHigh_b (x : Byte) (s : State) : (setBmuxHigh x s).b = s.b := rfl
@[simp] theorem setBmuxHigh_d (x : Byte) (s : State) : (setBmuxHigh x s).d = s.d := rfl
@[simp] theorem setBmuxHigh_fault (x : Byte) (s : State) : (setBmuxHigh x s).fault = s.fault := rfl
@[simp] theorem setBmuxHigh_rom (x : Byte) (s : State) : (setBmuxHigh x s).rom = s.rom := rfl
@[simp] theorem setBmuxHigh_busRd (x : Byte) (s : State) : (setBmuxHigh x s).busRd = s.busRd := rfl
@[simp] theorem setBmuxHigh_unibus (x : Byte) (s : State) : (setBmuxHigh x s).unibus = s.unibus := rfl
@[simp] theorem setBmuxHigh_carryIn (x : Byte) (s : State) : (setBmuxHigh x s).carryIn = s.carryIn := rfl
@[simp] theorem setBmuxHigh_bcOut (x : Byte) (s : State) : (setBmuxHigh x s).bcOut = s.bcOut := rfl
@[simp] theorem setBmuxHigh_bmuxOut (x : Byte) (s : State) : (setBmuxHigh x s).bmuxOut = joinBytes x (lowByte s.bmuxOut) := rfl
@[simp] theorem setBmuxHigh_dmuxOut (x : Byte) (s : State) : (setBmuxHigh x s).dmuxOut = s.dmuxOut := rfl
@[simp] theorem setBmuxHigh_moves (x : Byte) (s : State) : (setBmuxHigh x s).moves = s.moves := rfl
@[simp] theorem setBmuxHigh_draws (x : Byte) (s : State) : (setBmuxHigh x s).draws = s.draws := rfl

@[simp] theorem setDmuxOut_mode (v : Word) (s : State) : (setDmuxOut v s).mode = s.mode := rfl
@[simp] theorem setDmuxOut_cw (v : Word) (s : State) : (setDmuxOut v s).cw = s.cw := rfl
@[simp] theorem setDmuxOut_ptr (v : Word) (s : State) : (setDmuxOut v s).ptr = s.ptr := rfl
@[simp] theorem setDmuxOut_ptrBuf (v : Word) (s : State) : (setDmuxOut v s).ptrBuf = s.ptrBuf := rfl
@[simp] theorem setDmuxOut_ptrPrev (v : Word) (s : State) : (setDmuxOut v s).ptrPrev = s.ptrPrev := rfl
@[simp] theorem setDmuxOut_but (v : Word) (s : State) : (setDmuxOut v s).but = s.but := rfl
@[simp] theorem setDmuxOut_butNext (v : Word) (s : State) : (setDmuxOut v s).butNext = s.butNext := rfl
@[simp] theorem setDmuxOut_sw (v : Word) (s : State) : (setDmuxOut v s).sw = s.sw := rfl
@[simp] theorem setDmuxOut_sclk (v : Word) (s : State) : (setDmuxOut v s).sclk = s.sclk := rfl
@[simp] theorem setDmuxOut_disp (v : Word) (s : State) : (setDmuxOut v s).disp = s.disp := rfl
@[simp] theorem setDmuxOut_b (v : Word) (s : State) : (setDmuxOut v s).b = s.b := rfl
@[simp] theorem setDmuxOut_d (v : Word) (s : State) : (setDmuxOut v s).d = s.d := rfl
@[simp] theorem setDmuxOut_fault (v : Word) (s : State) : (setDmuxOut v s).fault = s.fault := rfl
@[simp] theorem setDmuxOut_rom (v : Word) (s : State) : (setDmuxOut v s).rom = s.rom := rfl
@[simp] theorem setDmuxOut_busRd (v : Word) (s : State) : (setDmuxOut v s).busRd = s.busRd := rfl
@[simp] theorem setDmuxOut_unibus (v : Word) (s : State) : (setDmuxOut v s).unibus = s.unibus := rfl
@[simp] theorem setDmuxOut_carryIn (v : Word) (s : State) : (setDmuxOut v s).carryIn = s.carryIn := rfl
@[simp] theorem setDmuxOut_bcOut (v : Word) (s : State) : (setDmuxOut v s).bcOut = s.bcOut := rfl
@[simp] theorem setDmuxOut_bmuxOut (v : Word) (s : State) : (setDmuxOut v s).bmuxOut = s.bmuxOut := rfl
@[simp] theorem setDmuxOut_dmuxOut (v : Word) (s : State) : (setDmuxOut v s).dmuxOut = v := rfl
@[simp] theorem setDmuxOut_moves (v : Word) (s : State) : (setDmuxOut v s).moves = s.moves := rfl
@[simp] theorem setDmuxOut_draws (v : Word) (s : State) : (setDmuxOut v s).draws = s.draws := rfl

@[simp] theorem setMoves_mode (ms : List EnvMove) (s : State) : (setMoves ms s).mode = s.mode := rfl
@[simp] theorem setMoves_cw (ms : List EnvMove) (s : State) : (setMoves ms s).cw = s.cw := rfl
@[simp] theorem setMoves_ptr (ms : List EnvMove) (s : State) : (setMoves ms s).ptr = s.ptr := rfl
@[simp] theorem setMoves_ptrBuf (ms : List EnvMove) (s : State) : (setMoves ms s).ptrBuf = s.ptrBuf := rfl
@[simp] theorem setMoves_ptrPrev (ms : List EnvMove) (s : State) : (setMoves ms s).ptrPrev = s.ptrPrev := rfl
@[simp] theorem setMoves_but (ms : List EnvMove) (s : State) : (setMoves ms s).but = s.but := rfl
@[simp] theorem setMoves_butNext (ms : List EnvMove) (s : State) : (setMoves ms s).butNext = s.butNext := rfl
@[simp] theorem setMoves_sw (ms : List EnvMove) (s : State) : (setMoves ms s).sw = s.sw := rfl
@[simp] theorem setMoves_sclk (ms : List EnvMove) (s : State) : (setMoves ms s).sclk = s.sclk := rfl
@[simp] theorem setMoves_disp (ms : List EnvMove) (s : State) : (setMoves ms s).disp = s.disp := rfl
@[simp] theorem setMoves_b (ms : List EnvMove) (s : State) : (setMoves ms s).b = s.b := rfl
@[simp] theorem setMoves_d (ms : List EnvMove) (s : State) : (setMoves ms s).d = s.d := rfl
@[simp] theorem setMoves_fault (ms : List EnvMove) (s : State) : (setMoves ms s).fault = s.fault := rfl
@[simp] theorem setMoves_rom (ms : List EnvMove) (s : State) : (setMoves ms s).rom = s.rom := rfl
@[simp] theorem setMoves_busRd (ms : List EnvMove) (s : State) : (setMoves ms s).busRd = s.busRd := rfl
@[simp] theorem setMoves_unibus (ms : List EnvMove) (s : State) : (setMoves ms s).unibus = s.unibus := rfl
@[simp] theorem setMoves_carryIn (ms : List EnvMove) (s : State) : (setMoves ms s).carryIn = s.carryIn := rfl
@[simp] theorem setMoves_bcOut (ms : List EnvMove) (s : State) : (setMoves ms s).bcOut = s.bcOut := rfl
@[simp] theorem setMoves_bmuxOut (ms : List EnvMove) (s : State) : (setMoves ms s).bmuxOut = s.bmuxOut := rfl
@[simp] theorem setMoves_dmuxOut (ms : List EnvMove) (s : State) : (setMoves ms s).dmuxOut = s.dmuxOut := rfl
@[simp] theorem setMoves_moves (ms : List EnvMove) (s : State) : (setMoves ms s).moves = ms := rfl
@[simp] theorem setMoves_draws (ms : List EnvMove) (s : State) : (setMoves ms s).draws = s.draws := rfl

end Sys2Proof.Machine
end

