-- ==== Sys2Proof/Laws/Ops.lean ====
section
/-! SUPPORT. One lemma for each shared operation that says once what it does: the gate, sequencing, settling a result,
the evaluation of each component, and the fact that a field's row and its consumer agree. -/

namespace Sys2Proof.Machine

theorem whenRunning_of_none {s : State} (h : s.fault = none) (k : State → Outcome) : whenRunning s k = k s := by
  simp [whenRunning, h]

theorem whenRunning_of_some {s : State} {r : AbortRecord} (h : s.fault = some r) (k : State → Outcome) :
    whenRunning s k = .fault (.runEnded r) := by
  simp [whenRunning, h]

/-- If the gate lets a next state through, no abort had occurred and the gated rule gave it. -/
theorem whenRunning_next {s t : State} {k : State → Outcome} (h : whenRunning s k = .next t) :
    s.fault = none ∧ k s = .next t := by
  unfold whenRunning at h
  split at h
  · exact ⟨‹_›, h⟩
  · cases h

theorem andThen_of_none {s : State} (h : s.fault = none) (k : State → Outcome) : andThen (.next s) k = k s := by
  simp [andThen, h]

theorem andThen_of_some {s : State} {r : AbortRecord} (h : s.fault = some r) (k : State → Outcome) :
    andThen (.next s) k = .next s := by
  simp [andThen, h]

/-- A sequence that answers a next state either aborted in its first rule or ran both. -/
theorem andThen_next {o : Outcome} {k : State → Outcome} {t : State} (h : andThen o k = .next t) :
    ∃ u, o = .next u ∧ ((u.fault = none ∧ k u = .next t) ∨ (u.fault ≠ none ∧ t = u)) := by
  cases o with
  | next u =>
    refine ⟨u, rfl, ?_⟩
    cases hu : u.fault with
    | none => exact .inl ⟨rfl, by simpa [andThen, hu] using h⟩
    | some r => exact .inr ⟨by simp, by simpa [andThen, hu, eq_comm] using h⟩
  | fault r => cases h
  | refused r => cases h

theorem andThen_assoc (o : Outcome) (f g : State → Outcome) :
    andThen (andThen o f) g = andThen o fun s => andThen (f s) g := by
  cases o with
  | next s => cases hs : s.fault <;> simp [andThen, hs]
  | fault r => rfl
  | refused r => rfl

/-- Settling a result: its value takes effect, or its abort does. -/
theorem settle_next {α : Type} {r : Result α} {k : α → State → State} {s t : State} (h : settle r k s = .next t) :
    (∃ v, r = .value v ∧ t = k v s) ∨ ∃ c, r = .raised c ∧ t = raise c s := by
  cases r with
  | value v => exact .inl ⟨v, rfl, by simpa [settle, eq_comm] using h⟩
  | raised c => exact .inr ⟨c, rfl, by simpa [settle, eq_comm] using h⟩

theorem evalConstant_of_running {s : State} (h : s.fault = none) (n : Nat) :
    evalConstant n s = settle (bConst n s.sclk) setBcOut s := whenRunning_of_none h _

theorem evalBranch_of_running {s : State} (h : s.fault = none) (f : Nat) :
    evalBranch f s = settle (branchEval f s.sw (dIsZero s.d)) latchBranch s := whenRunning_of_none h _

theorem evalClock_of_running {s : State} (h : s.fault = none) (c : Nat) :
    evalClock c s = settle (clockSelect c) setMode s := whenRunning_of_none h _

theorem evalDmux_of_running {s : State} (h : s.fault = none) (n : Nat) :
    evalDmux n s = settle (dMux n s.busRd s.unibus s.d s.carryIn) setDmuxOut s := whenRunning_of_none h _

theorem evalBmuxLow_of_running {s : State} (h : s.fault = none) (sel : BitVec 2) :
    evalBmuxLow sel s = .next (setBmuxLow (bMuxLow sel s.b s.bcOut) s) := whenRunning_of_none h _

theorem evalBmuxHigh_of_running {s : State} (h : s.fault = none) (sel : BitVec 2) :
    evalBmuxHigh sel s = .next (setBmuxHigh (bMuxHigh sel s.b s.bcOut) s) := whenRunning_of_none h _

/-- Every BCS value, a row's or not, is the generator's own evaluation. -/
theorem runRow_bc (n : Nat) (s : State) : runRow (bcRow n) (evalConstant n) s = evalConstant n s := by
  unfold bcRow
  split <;> rfl

/-- Every BRF value is the evaluator's own evaluation. -/
theorem runRow_but (f : Nat) (s : State) : runRow (butRow f) (evalBranch f) s = evalBranch f s := by
  unfold butRow
  split <;> rfl

/-- Every CLKF value is the clock selection itself. -/
theorem runRow_clk (c : Nat) (s : State) : runRow (clkRow c) (evalClock c) s = evalClock c s := by
  unfold clkRow
  split <;> rfl

/-- Every DMS value is the D-mux's own evaluation. -/
theorem runRow_dm (n : Nat) (s : State) : runRow (dmRow n) (evalDmux n) s = evalDmux n s := by
  unfold dmRow
  split <;> rfl

/-- Every low-byte selector is the B-mux's own low half. -/
theorem runRow_bml (sel : BitVec 2) (s : State) :
    runRow (bmlRow sel.toNat) (evalBmuxLow sel) s = evalBmuxLow sel s := by
  match sel with
  | 0 => rfl
  | 1 => rfl
  | 2 => rfl
  | 3 => rfl

/-- Every high-byte selector is the B-mux's own high half. -/
theorem runRow_bmh (sel : BitVec 2) (s : State) :
    runRow (bmhRow sel.toNat) (evalBmuxHigh sel) s = evalBmuxHigh sel s := by
  match sel with
  | 0 => rfl
  | 1 => rfl
  | 2 => rfl
  | 3 => rfl

/-- Every BCS row is the generator's evaluation of the row's value. -/
theorem exec_of_bcs {i : Instr} (h : i.field = .bcs) (s : State) : exec i s = evalConstant i.value s := by
  cases i <;> first | rfl | cases h

/-- Every BRF row is the branch evaluator's evaluation of the row's value. -/
theorem exec_of_brf {i : Instr} (h : i.field = .brf) (s : State) : exec i s = evalBranch i.value s := by
  cases i <;> first | rfl | cases h

/-- Every CLKF row is the clock selection on the row's value. -/
theorem exec_of_clkf {i : Instr} (h : i.field = .clkf) (s : State) : exec i s = evalClock i.value s := by
  cases i <;> first | rfl | cases h

/-- Every DMS row is the D-mux's evaluation of the row's value. -/
theorem exec_of_dms {i : Instr} (h : i.field = .dms) (s : State) : exec i s = evalDmux i.value s := by
  cases i <;> first | rfl | cases h

/-- Every low-byte row is the B-mux's low half on the row's value. -/
theorem exec_of_bml {i : Instr} (h : i.field = .bml) (s : State) :
    exec i s = evalBmuxLow (BitVec.ofNat 2 i.value) s := by
  cases i <;> first | rfl | cases h

/-- Every high-byte row is the B-mux's high half on the row's value. -/
theorem exec_of_bmh {i : Instr} (h : i.field = .bmh) (s : State) :
    exec i s = evalBmuxHigh (BitVec.ofNat 2 i.value) s := by
  cases i <;> first | rfl | cases h

/-- No row runs after an abort. -/
theorem exec_of_aborted {s : State} {r : AbortRecord} (h : s.fault = some r) (i : Instr) :
    exec i s = .fault (.runEnded r) := by
  cases hf : i.field with
  | impl =>
    cases i <;> first | (cases hf; done) | (simp only [exec, execImpl0, execImpl1]; exact whenRunning_of_some h _)
  | prog => cases i <;> first | (cases hf; done) | (simp only [exec, execProg]; exact whenRunning_of_some h _)
  | bcs => rw [exec_of_bcs hf]; exact whenRunning_of_some h _
  | bml => rw [exec_of_bml hf]; exact whenRunning_of_some h _
  | bmh => rw [exec_of_bmh hf]; exact whenRunning_of_some h _
  | dms => rw [exec_of_dms hf]; exact whenRunning_of_some h _
  | brf => rw [exec_of_brf hf]; exact whenRunning_of_some h _
  | clkf => rw [exec_of_clkf hf]; exact whenRunning_of_some h _

/-- A settled result is always a next state. -/
theorem settle_is_next {α : Type} (r : Result α) (k : α → State → State) (s : State) : ∃ t, settle r k s = .next t := by
  cases r <;> exact ⟨_, rfl⟩

theorem evalBcOut_eq (s : State) : evalBcOut s = evalConstant s.cw.bcs s := runRow_bc _ _

theorem evalDmuxOut_eq (s : State) : evalDmuxOut s = evalDmux s.cw.dms s := runRow_dm _ _

theorem branchStep_eq (s : State) : branchStep s = evalBranch s.cw.brf (advanceBranch s) := runRow_but _ _

theorem selectStep_eq (s : State) : selectStep s = evalClock s.cw.clkf s := runRow_clk _ _

/-- The fetch sub-steps S1 to S4 from a state in which no abort has occurred. -/
theorem fetchStep_of_running {s : State} (h : s.fault = none) :
    fetchStep s =
      settle (romFetch s.rom s.nextAddress) latchWord (latchPointers s.nextAddress s) := by
  have hf : (latchPointers (formAddress s.cw.prog s.but) s).fault = none := h
  simp only [fetchStep, exec, execProg, whenRunning_of_none h, andThen_of_none hf]
  cases hr : Memory.read s.rom s.nextAddress.toNat <;>
    simp_all [execImpl0, execImpl1, implRow, whenRunning, romFetch, settle, State.nextAddress]

/-- The halves of the B-mux together are the pure function of the contract. -/
theorem evalBmuxHalves_of_running {s : State} (h : s.fault = none) :
    evalBmuxHalves s =
      settle (bMux s.cw.bms s.b s.bcOut) (fun v s => { s with bmuxOut := v }) s := by
  by_cases hn : s.cw.bms < 16
  · simp only [evalBmuxHalves, bMux, bMuxSplit, hn, if_true]
    rw [runRow_bml, evalBmuxLow_of_running h, andThen_of_none (by simpa using h), runRow_bmh,
      evalBmuxHigh_of_running (by simpa using h)]
    simp [settle, setBmuxHigh, setBmuxLow]
  · simp [evalBmuxHalves, bMux, bMuxSplit, hn, settle]

end Sys2Proof.Machine
end

