-- ==== Sys2Proof/Laws/Engine.lean ====
section
/-! SUPPORT. Where a step leads: to the environment's next move, and for a cycle to the register-transfer step followed by
the clock selection, whatever the mode; what each move is, and what a next state came from. -/

namespace Sys2Proof.Machine

theorem andThen_next_self (o : Outcome) : andThen o (fun s => .next s) = o := by
  cases o with
  | next s => cases hs : s.fault <;> simp [andThen, hs]
  | fault r => rfl
  | refused r => rfl

theorem pulseStep_of_not_due {m : ClockMode} {p : Pulse} (h : due p m = false) (s : State) :
    pulseStep m p s = .next s := by
  simp [pulseStep, h]

/-- In every mode a cycle can run in, the pulses of the cycle do one register-transfer step (R97, R218). -/
theorem runPulses_of_on {m : ClockMode} (hm : m ≠ .off) {s : State} (h : s.fault = none) :
    runPulses m (activePulses m) s = rtStep s := by
  cases m with
  | off => exact absurd rfl hm
  | cl1 => exact andThen_next_self _
  | cl2 => exact andThen_next_self _
  | cl3 => exact (andThen_of_none h _).trans (andThen_next_self _)

/-- A step without an abort is the environment's next move. -/
theorem step_of_running {s : State} (h : s.fault = none) : step s = envMove s.nextMove (setMoves s.moves.tail s) := by
  simp [step, advance, whenRunning, h]

/-- A step with a scheduled move takes the first one. -/
theorem step_of_move {s : State} {e : EnvMove} {ms : List EnvMove} (h : s.fault = none) (hm : s.moves = e :: ms) :
    step s = envMove e (setMoves ms s) := by
  rw [step_of_running h, State.nextMove, hm]
  rfl

/-- A cycle in a mode it can run in is the register-transfer step and then the selection of the next mode. -/
theorem cycle_of_on {s : State} (h : s.fault = none) (hm : s.mode ≠ .off) :
    cycle s = andThen (rtStep s) selectStep := by
  rw [cycle, whenRunning_of_none h, ← runPulses_of_on hm h]
  cases hs : s.mode with
  | off => exact absurd hs hm
  | cl1 => rfl
  | cl2 => rfl
  | cl3 => rfl

/-- A step whose cycle is enabled is the register-transfer step and then the selection of the next mode, with the
invocation off the schedule. -/
theorem step_of_ready {s : State} (h : s.Ready) :
    step s = andThen (rtStep (setMoves s.moves.tail s)) selectStep := by
  rw [step_of_running h.running, h.invoked]
  exact cycle_of_on h.running h.on

/-- A step after an abort stops. -/
theorem step_of_aborted {s : State} {r : AbortRecord} (h : s.fault = some r) : step s = .fault (.runEnded r) := by
  simp [step, advance, whenRunning, h]

theorem evalBmuxOut_of_running {s : State} (h : s.fault = none) :
    evalBmuxOut s = andThen (settle (bConst s.cw.bcs s.sclk) setBcOut s) evalBmuxHalves := by
  rw [evalBmuxOut, evalBcOut_eq, evalConstant_of_running h]

/-- A step that answers a next state: no abort had occurred, and it was an enabled cycle or another move. -/
theorem step_next {s t : State} (h : step s = .next t) :
    s.fault = none ∧ envMove s.nextMove (setMoves s.moves.tail s) = .next t ∧ (s.Ready ∨ s.nextMove ≠ .cycle) := by
  cases hf : s.fault with
  | some r => rw [step_of_aborted hf] at h; cases h
  | none =>
    rw [step_of_running hf] at h
    refine ⟨rfl, h, ?_⟩
    by_cases hc : s.nextMove = .cycle
    · refine .inl ⟨hf, fun hoff => ?_, hc⟩
      simp [hc, envMove, cycle, whenRunning, hf, hoff] at h
    · exact .inr hc

/-- Everything a move other than a cycle can do: write the switch, drive the input ports, or put values on the output
ports, of DMUX_OUT with the input ports driven first, and perhaps abort. -/
theorem envMove_next {e : EnvMove} {s t : State} (hf : s.fault = none) (hc : e ≠ .cycle) (h : envMove e s = .next t) :
    (∃ x, e = .writeSwitch x ∧ t = { s with sw := x }) ∨
    (∃ r u c, e = .drive r u c ∧ t = { s with busRd := r, unibus := u, carryIn := c }) ∨
    ((e = .evaluate .bcOut ∨ e = .evaluate .bmuxOut) ∧
      t = { s with bcOut := t.bcOut, bmuxOut := t.bmuxOut, fault := t.fault }) ∨
    ∃ r u c, e = .evaluate (.dmuxOut r u c) ∧
      t = { s with busRd := r, unibus := u, carryIn := c, dmuxOut := t.dmuxOut, fault := t.fault } := by
  cases e with
  | cycle => exact absurd rfl hc
  | writeSwitch x => cases h; exact .inl ⟨_, rfl, rfl⟩
  | drive r u c => cases h; exact .inr (.inl ⟨_, _, _, rfl, rfl⟩)
  | evaluate o =>
    refine .inr (.inr ?_)
    cases o with
    | bcOut =>
      refine .inl ⟨.inl rfl, ?_⟩
      change evalBcOut s = _ at h
      rw [evalBcOut_eq, evalConstant_of_running hf] at h
      rcases settle_next h with ⟨v, _, rfl⟩ | ⟨c, _, rfl⟩ <;> rfl
    | dmuxOut r u c =>
      refine .inr ⟨r, u, c, rfl, ?_⟩
      change evalDmuxOut (driveInputs r u c s) = _ at h
      rw [evalDmuxOut_eq, evalDmux_of_running (by exact hf)] at h
      rcases settle_next h with ⟨v, _, rfl⟩ | ⟨c, _, rfl⟩ <;> rfl
    | bmuxOut =>
      refine .inl ⟨.inr rfl, ?_⟩
      change evalBmuxOut s = _ at h
      rw [evalBmuxOut_of_running hf] at h
      obtain ⟨u, hu, hh⟩ := andThen_next h
      have hu' : u = { s with bcOut := u.bcOut, fault := u.fault } := by
        rcases settle_next hu with ⟨v, _, rfl⟩ | ⟨c, _, rfl⟩ <;> rfl
      rcases hh with ⟨h1, h2⟩ | ⟨h1, rfl⟩
      · rw [evalBmuxHalves_of_running h1] at h2
        rcases settle_next h2 with ⟨v, _, rfl⟩ | ⟨c, _, rfl⟩
        · rw [hu']
        · rw [hu']; rfl
      · have hp : t.bmuxOut = s.bmuxOut := by rw [hu']
        rw [hp]
        exact hu'

/-- A branch value is 0 or 1. -/
theorem branchEval_le_one {f : Nat} {sw dz : Bool} {e : Byte} (h : branchEval f sw dz = .value e) : e.toNat ≤ 1 := by
  by_cases hf : f < 32
  · interval_cases f <;> revert h <;> cases sw <;> cases dz <;>
      first | (intro h; cases h; done) | (intro h; cases h; decide)
  · rw [branchEval, if_neg (by omega)] at h; cases h

/-- The clock selection never gives OFF. -/
theorem clockSelect_on {c : Nat} {m : ClockMode} (h : clockSelect c = .value m) : m ≠ .off := by
  unfold clockSelect at h
  split at h <;> cases h <;> decide

end Sys2Proof.Machine
end

