-- ==== Sys2Proof/Laws/Memory.lean ====
section
/-! SUPPORT. Laws of the micro-ROM's list form: what a load leaves at each address, that a load keeps the canonical form,
that canonical ROMs with equal entries are equal data, and what rewriting every word does to a read. -/

namespace Sys2Proof.Machine

@[simp] theorem Memory.read_nil (a : Nat) : Memory.read [] a = none := rfl

theorem Memory.read_below {lo a : Nat} {m : Memory} (h : Memory.wfFrom lo m = true) (ha : a < lo) :
    Memory.read m a = none := by
  induction m generalizing lo with
  | nil => rfl
  | cons e m ih =>
    obtain ⟨k, w⟩ := e
    simp only [Memory.wfFrom, Bool.and_eq_true, decide_eq_true_eq] at h
    have hk : k ≠ a := by omega
    simpa [Memory.read, hk] using ih h.2 (by omega)

theorem Memory.wfFrom_mono {lo lo' : Nat} {m : Memory} (h : Memory.wfFrom lo m = true) (hl : lo' ≤ lo) :
    Memory.wfFrom lo' m = true := by
  cases m with
  | nil => rfl
  | cons e m =>
    obtain ⟨k, w⟩ := e
    simp only [Memory.wfFrom, Bool.and_eq_true, decide_eq_true_eq] at h ⊢
    exact ⟨⟨by omega, h.1.2⟩, h.2⟩

theorem Memory.wfFrom_load {lo a : Nat} {m : Memory} (e : Option MicroWord) (h : Memory.wfFrom lo m = true)
    (hl : lo ≤ a) (ha : a < 256) : Memory.wfFrom lo (Memory.load m a e) = true := by
  induction m generalizing lo with
  | nil => cases e <;> simp [Memory.load, Memory.wfFrom, hl, ha]
  | cons x m ih =>
    obtain ⟨k, w⟩ := x
    simp only [Memory.wfFrom, Bool.and_eq_true, decide_eq_true_eq] at h
    rcases Nat.lt_trichotomy a k with hk | rfl | hk
    · cases e <;> simp [Memory.load, Memory.wfFrom, hk, hl, ha, h]
    · cases e with
      | none => simpa [Memory.load] using Memory.wfFrom_mono h.2 (by omega)
      | some w => simp [Memory.load, Memory.wfFrom, hl, ha, h]
    · have h1 : ¬ a < k := by omega
      have h2 : a ≠ k := by omega
      simp only [Memory.load, h1, h2, if_false, Memory.wfFrom, Bool.and_eq_true, decide_eq_true_eq]
      exact ⟨h.1, ih h.2 (by omega)⟩

theorem Memory.read_load_of_wfFrom {lo a : Nat} {m : Memory} (e : Option MicroWord) (h : Memory.wfFrom lo m = true)
    (b : Nat) : Memory.read (Memory.load m a e) b = if b = a then e else Memory.read m b := by
  induction m generalizing lo with
  | nil =>
    cases e with
    | none => simp [Memory.load]
    | some w =>
      by_cases hb : a = b
      · simp [Memory.load, Memory.read, hb]
      · have hba : b ≠ a := fun he => hb he.symm
        simp [Memory.load, Memory.read, hb, hba]
  | cons x m ih =>
    obtain ⟨k, w⟩ := x
    simp only [Memory.wfFrom, Bool.and_eq_true, decide_eq_true_eq] at h
    rcases Nat.lt_trichotomy a k with hk | rfl | hk
    · have hn : Memory.read m a = none := Memory.read_below h.2 (by omega)
      have hka : k ≠ a := by omega
      cases e with
      | none => by_cases hb : b = a <;> simp [Memory.load, Memory.read, hk, hb, hka, hn]
      | some v =>
        by_cases hb : a = b
        · subst hb
          simp [Memory.load, Memory.read, hk]
        · have hba : b ≠ a := fun he => hb he.symm
          simp [Memory.load, Memory.read, hk, hb, hba]
    · cases e with
      | none =>
        by_cases hb : b = a
        · subst hb
          simpa [Memory.load] using Memory.read_below h.2 (by omega)
        · have hab : a ≠ b := fun he => hb he.symm
          simp [Memory.load, Memory.read, hb, hab]
      | some v =>
        by_cases hb : b = a
        · simp [Memory.load, Memory.read, hb]
        · have hab : a ≠ b := fun he => hb he.symm
          simp [Memory.load, Memory.read, hb, hab]
    · have h1 : ¬ a < k := by omega
      have h2 : a ≠ k := by omega
      by_cases hkb : k = b
      · have hba : b ≠ a := by omega
        subst hkb
        simp [Memory.load, Memory.read, h1, h2, hba]
      · simpa [Memory.load, Memory.read, h1, h2, hkb] using ih h.2

/-- A load keeps the canonical form. -/
theorem Memory.wf_load {m : Memory} (h : Memory.wf m = true) (a : MicroAddr) (e : Option MicroWord) :
    Memory.wf (Memory.load m a.toNat e) = true :=
  Memory.wfFrom_load e h (Nat.zero_le _) a.isLt

/-- A load puts its entry at its address and leaves every other address alone. -/
theorem Memory.read_load {m : Memory} (h : Memory.wf m = true) (a : Nat) (e : Option MicroWord) (b : Nat) :
    Memory.read (Memory.load m a e) b = if b = a then e else Memory.read m b :=
  Memory.read_load_of_wfFrom e h b

/-- No address above 255 is listed in a canonical ROM. -/
theorem Memory.read_above {lo a : Nat} {m : Memory} (h : Memory.wfFrom lo m = true) (ha : 256 ≤ a) :
    Memory.read m a = none := by
  induction m generalizing lo with
  | nil => rfl
  | cons e m ih =>
    obtain ⟨k, w⟩ := e
    simp only [Memory.wfFrom, Bool.and_eq_true, decide_eq_true_eq] at h
    have hk : k ≠ a := by omega
    simpa [Memory.read, hk] using ih h.2

theorem Memory.ext_of_wfFrom {lo : Nat} {m m' : Memory} (h : Memory.wfFrom lo m = true)
    (h' : Memory.wfFrom lo m' = true) (hr : ∀ a, Memory.read m a = Memory.read m' a) : m = m' := by
  induction m generalizing lo m' with
  | nil =>
    cases m' with
    | nil => rfl
    | cons x m' =>
      have := hr x.1
      simp [Memory.read] at this
  | cons x m ih =>
    obtain ⟨k, w⟩ := x
    cases m' with
    | nil =>
      have := hr k
      simp [Memory.read] at this
    | cons y m' =>
      obtain ⟨k', w'⟩ := y
      simp only [Memory.wfFrom, Bool.and_eq_true, decide_eq_true_eq] at h h'
      have hk : k = k' := by
        rcases Nat.lt_trichotomy k k' with hlt | heq | hlt
        · have hn : Memory.read m' k = none := Memory.read_below h'.2 (by omega)
          have hne : k' ≠ k := by omega
          simpa [Memory.read, hne, hn] using hr k
        · exact heq
        · have hn : Memory.read m k' = none := Memory.read_below h.2 (by omega)
          have hne : k ≠ k' := by omega
          simpa [Memory.read, hne, hn] using hr k'
      subst hk
      have hw : w = w' := by simpa [Memory.read] using hr k
      subst hw
      refine congrArg _ (ih h.2 h'.2 fun a => ?_)
      by_cases ha : k = a
      · subst ha
        rw [Memory.read_below h.2 (by omega), Memory.read_below h'.2 (by omega)]
      · simpa [Memory.read, ha] using hr a

/-- Equal memories are equal data: canonical ROMs that read alike are the same list. -/
theorem Memory.ext_of_wf {m m' : Memory} (h : Memory.wf m = true) (h' : Memory.wf m' = true)
    (hr : ∀ a, Memory.read m a = Memory.read m' a) : m = m' :=
  Memory.ext_of_wfFrom h h' hr

/-- Reading after rewriting every word. -/
theorem Memory.read_mapWords (f : MicroWord → MicroWord) (m : Memory) (a : Nat) :
    Memory.read (Memory.mapWords f m) a = (Memory.read m a).map f := by
  induction m with
  | nil => rfl
  | cons x m ih =>
    obtain ⟨k, w⟩ := x
    by_cases hk : k = a
    · simp [Memory.mapWords, Memory.read, hk]
    · simpa [Memory.mapWords, Memory.read, hk] using ih

end Sys2Proof.Machine
end

