-- ==== Sys2Proof/Laws/PerInstr.lean ====
section
/-! SUPPORT. Statements made per instruction. RowRoundTrip: decoding the field of an encoded row gives the row back. -/

namespace Sys2Proof.Laws.RowRoundTrip

/-- Decoding, in the row's own field, the word the encoder writes for the row gives the row (30_encoding.md R64, R75). -/
def Statement (i : Instr) : Prop := decodeField i.field (encode i) = .ok i

/-- The PROG field of a placed PROG value is that value. -/
theorem read_place_prog (p : MicroAddr) : Field.prog.read (place .prog p.toNat) = p.toNat := by
  simp only [Field.read, place, Field.low, Field.width]
  congr 1
  apply BitVec.eq_of_getLsbD_eq
  intro i h
  have h1 : i < 32 := by omega
  have h2 : (0x80000000 : PackedWord).getLsbD i = false := by
    have : ∀ j : Fin 8, (0x80000000 : PackedWord).getLsbD j = false := by decide
    exact this ⟨i, h⟩
  simp [h, h1] at h2 ⊢
  simp [h2]

theorem impl0 : Statement .impl0 := rfl
theorem impl1 : Statement .impl1 := rfl
theorem prog (p : MicroAddr) : Statement (.prog p) := by
  have hb : implBit (place .prog p.toNat) = true := by simp [implBit, place]
  have h := read_place_prog p
  simp [Statement, decodeField, Instr.field, encode, Instr.value, hb, h, rowOf, p.isLt]
theorem bc00 : Statement .bc00 := rfl
theorem bc01 : Statement .bc01 := rfl
theorem bc02 : Statement .bc02 := rfl
theorem bc03 : Statement .bc03 := rfl
theorem bc04 : Statement .bc04 := rfl
theorem bc05 : Statement .bc05 := rfl
theorem bc06 : Statement .bc06 := rfl
theorem bc07 : Statement .bc07 := rfl
theorem bc10 : Statement .bc10 := rfl
theorem bc11 : Statement .bc11 := rfl
theorem bc12 : Statement .bc12 := rfl
theorem bc13 : Statement .bc13 := rfl
theorem bc14 : Statement .bc14 := rfl
theorem bc15 : Statement .bc15 := rfl
theorem bc16 : Statement .bc16 := rfl
theorem bc17 : Statement .bc17 := rfl
theorem bml0 : Statement .bml0 := rfl
theorem bml1 : Statement .bml1 := rfl
theorem bml2 : Statement .bml2 := rfl
theorem bml3 : Statement .bml3 := rfl
theorem bmh0 : Statement .bmh0 := rfl
theorem bmh1 : Statement .bmh1 := rfl
theorem bmh2 : Statement .bmh2 := rfl
theorem bmh3 : Statement .bmh3 := rfl
theorem dm0 : Statement .dm0 := rfl
theorem dm1 : Statement .dm1 := rfl
theorem dm2 : Statement .dm2 := rfl
theorem dm3 : Statement .dm3 := rfl
theorem but00 : Statement .but00 := rfl
theorem but01 : Statement .but01 := rfl
theorem but02 : Statement .but02 := rfl
theorem but03 : Statement .but03 := rfl
theorem but04 : Statement .but04 := rfl
theorem but05 : Statement .but05 := rfl
theorem but06 : Statement .but06 := rfl
theorem but07 : Statement .but07 := rfl
theorem but10 : Statement .but10 := rfl
theorem but11 : Statement .but11 := rfl
theorem but12 : Statement .but12 := rfl
theorem but13 : Statement .but13 := rfl
theorem but14 : Statement .but14 := rfl
theorem but15 : Statement .but15 := rfl
theorem but16 : Statement .but16 := rfl
theorem but17 : Statement .but17 := rfl
theorem but20 : Statement .but20 := rfl
theorem but21 : Statement .but21 := rfl
theorem but22 : Statement .but22 := rfl
theorem but23 : Statement .but23 := rfl
theorem but24 : Statement .but24 := rfl
theorem but25 : Statement .but25 := rfl
theorem but26 : Statement .but26 := rfl
theorem but27 : Statement .but27 := rfl
theorem but30 : Statement .but30 := rfl
theorem but31 : Statement .but31 := rfl
theorem but32 : Statement .but32 := rfl
theorem but33 : Statement .but33 := rfl
theorem but34 : Statement .but34 := rfl
theorem but35 : Statement .but35 := rfl
theorem but36 : Statement .but36 := rfl
theorem but37 : Statement .but37 := rfl
theorem clk0 : Statement .clk0 := rfl
theorem clk1 : Statement .clk1 := rfl
theorem clk2 : Statement .clk2 := rfl
theorem clk3 : Statement .clk3 := rfl
theorem clk4 : Statement .clk4 := rfl
theorem clk5 : Statement .clk5 := rfl
theorem clk6 : Statement .clk6 := rfl
theorem clk7 : Statement .clk7 := rfl

end Sys2Proof.Laws.RowRoundTrip
end

