-- ==== Sys2Proof/Tests/Slice0.lean ====
section
/-! SUPPORT. The model's own tests: the well-formedness smoke, the decoding of words written from the spec's encoding, the
spec's test vectors (95_test_vectors.md), the table words, and for every claim with hypotheses a witness that meets them. -/

open Sys2Proof Sys2Proof.Machine

namespace Sys2Proof.Tests

/-! ## Small states -/

/-- A word `PROG=prog, BRF=brf, CLKF=clkf`, every other field left out. -/
def word (prog : MicroAddr) (brf clkf : Nat) : MicroWord :=
  { prog := prog, brf := brf, bcs := 0, bms := 0, dms := 0, clkf := clkf }

/-- A running state whose next cycle fetches `w`, at 0o26. -/
def led (w : MicroWord) : State := { State.reset with fault := none, cw := word 0o26 0 1, rom := [(0o26, w)] }

/-- A running state about to evaluate output `o` on the current word `w`. -/
def asked (o : Evaluation) (w : MicroWord) : State := { led w with cw := w, moves := [.evaluate o] }

/-- A running state about to take the environment move `e`. -/
def moved (e : EnvMove) : State := { led (word 0 0 1) with moves := [e] }

/-- A running state whose schedule is a cycle, a write of the switch, and a cycle again; `w` is fetched by the first. -/
def interleaved (w : MicroWord) : State := { led w with moves := [.cycle, .writeSwitch true, .cycle] }

/-- A running state before a step, as the columns of 95_test_vectors.md section 2.6 give it. -/
def before (rom : Memory) (ptr : MicroAddr) (cw : MicroWord) (but butNext : Byte) : State :=
  { State.reset with fault := none, rom := rom, ptr := ptr, cw := cw, but := but, butNext := butNext }

/-- The columns of the tables of 95_test_vectors.md, and the abort record. -/
structure Columns where
  mode    : ClockMode
  ptr     : MicroAddr
  ptrBuf  : MicroAddr
  ptrPrev : MicroAddr
  but     : Byte
  butNext : Byte
  fault   : Option AbortRecord
  deriving DecidableEq, Repr

/-- The columns of a next state. -/
def columns (o : Outcome) : Option Columns :=
  match o with
  | .next s => some ⟨s.mode, s.ptr, s.ptrBuf, s.ptrPrev, s.but, s.butNext, s.fault⟩
  | .fault _ => none
  | .refused _ => none

theorem led_ready (w : MicroWord) : (led w).Ready := ⟨rfl, by show ClockMode.cl1 ≠ .off; decide, rfl⟩

theorem interleaved_ready (w : MicroWord) : (interleaved w).Ready := ⟨rfl, by show ClockMode.cl1 ≠ .off; decide, rfl⟩

theorem led_read (w : MicroWord) :
    Memory.read (led w).rom ((led w).cw.prog ||| (led w).but).toNat = some w := by
  simp [led, State.reset, word, Memory.read]

/-! ## Well-formedness: an ill-formed record for each check (a row itself has no ill-formed form: its one operand has
its width in its type) -/

theorem test_wf_accepts : (word 0o377 31 7).wf = true := by decide

theorem test_wf_refuses_brf : (word 0 32 1).wf = false := by decide

theorem test_wf_refuses_bcs : MicroWord.wf { word 0 0 1 with bcs := 16 } = false := by decide

theorem test_wf_refuses_bms : MicroWord.wf { word 0 0 1 with bms := 16 } = false := by decide

theorem test_wf_refuses_dms : MicroWord.wf { word 0 0 1 with dms := 4 } = false := by decide

theorem test_wf_refuses_clkf : (word 0 0 8).wf = false := by decide

/-! ## Decoding: every row's word, written from 30_encoding.md R64 and the match column of the opcode table -/

theorem test_decode_impl :
    decodeField .impl 0x00000000 = .ok .impl0 ∧
    decodeField .impl 0x80000000 = .ok .impl1 ∧
    decodeField .brf 0x7FFFFFFF = .error .noFields := by
  decide

theorem test_decode_prog :
    decodeField .prog 0x80000000 = .ok (.prog 0o000) ∧
    decodeField .prog 0x80000016 = .ok (.prog 0o026) ∧
    decodeField .prog 0xFFFFFFFF = .ok (.prog 0o377) := by
  decide

theorem test_decode_bc_0 :
    decodeField .bcs 0x80000000 = .ok .bc00 ∧
    decodeField .bcs 0x80002000 = .ok .bc01 ∧
    decodeField .bcs 0x80004000 = .ok .bc02 ∧
    decodeField .bcs 0x80006000 = .ok .bc03 ∧
    decodeField .bcs 0x80008000 = .ok .bc04 ∧
    decodeField .bcs 0x8000A000 = .ok .bc05 ∧
    decodeField .bcs 0x8000C000 = .ok .bc06 ∧
    decodeField .bcs 0x8000E000 = .ok .bc07 := by
  decide

theorem test_decode_bc_1 :
    decodeField .bcs 0x80010000 = .ok .bc10 ∧
    decodeField .bcs 0x80012000 = .ok .bc11 ∧
    decodeField .bcs 0x80014000 = .ok .bc12 ∧
    decodeField .bcs 0x80016000 = .ok .bc13 ∧
    decodeField .bcs 0x80018000 = .ok .bc14 ∧
    decodeField .bcs 0x8001A000 = .ok .bc15 ∧
    decodeField .bcs 0x8001C000 = .ok .bc16 ∧
    decodeField .bcs 0x8001E000 = .ok .bc17 := by
  decide

theorem test_decode_bml :
    decodeField .bml 0x80000000 = .ok .bml0 ∧
    decodeField .bml 0x80020000 = .ok .bml1 ∧
    decodeField .bml 0x80040000 = .ok .bml2 ∧
    decodeField .bml 0x80060000 = .ok .bml3 := by
  decide

theorem test_decode_bmh :
    decodeField .bmh 0x80000000 = .ok .bmh0 ∧
    decodeField .bmh 0x80080000 = .ok .bmh1 ∧
    decodeField .bmh 0x80100000 = .ok .bmh2 ∧
    decodeField .bmh 0x80180000 = .ok .bmh3 := by
  decide

theorem test_decode_dm :
    decodeField .dms 0x80000000 = .ok .dm0 ∧
    decodeField .dms 0x80200000 = .ok .dm1 ∧
    decodeField .dms 0x80400000 = .ok .dm2 ∧
    decodeField .dms 0x80600000 = .ok .dm3 := by
  decide

theorem test_decode_but_0 :
    decodeField .brf 0x80000000 = .ok .but00 ∧
    decodeField .brf 0x80000100 = .ok .but01 ∧
    decodeField .brf 0x80000200 = .ok .but02 ∧
    decodeField .brf 0x80000300 = .ok .but03 ∧
    decodeField .brf 0x80000400 = .ok .but04 ∧
    decodeField .brf 0x80000500 = .ok .but05 ∧
    decodeField .brf 0x80000600 = .ok .but06 ∧
    decodeField .brf 0x80000700 = .ok .but07 := by
  decide

theorem test_decode_but_1 :
    decodeField .brf 0x80000800 = .ok .but10 ∧
    decodeField .brf 0x80000900 = .ok .but11 ∧
    decodeField .brf 0x80000A00 = .ok .but12 ∧
    decodeField .brf 0x80000B00 = .ok .but13 ∧
    decodeField .brf 0x80000C00 = .ok .but14 ∧
    decodeField .brf 0x80000D00 = .ok .but15 ∧
    decodeField .brf 0x80000E00 = .ok .but16 ∧
    decodeField .brf 0x80000F00 = .ok .but17 := by
  decide

theorem test_decode_but_2 :
    decodeField .brf 0x80001000 = .ok .but20 ∧
    decodeField .brf 0x80001100 = .ok .but21 ∧
    decodeField .brf 0x80001200 = .ok .but22 ∧
    decodeField .brf 0x80001300 = .ok .but23 ∧
    decodeField .brf 0x80001400 = .ok .but24 ∧
    decodeField .brf 0x80001500 = .ok .but25 ∧
    decodeField .brf 0x80001600 = .ok .but26 ∧
    decodeField .brf 0x80001700 = .ok .but27 := by
  decide

theorem test_decode_but_3 :
    decodeField .brf 0x80001800 = .ok .but30 ∧
    decodeField .brf 0x80001900 = .ok .but31 ∧
    decodeField .brf 0x80001A00 = .ok .but32 ∧
    decodeField .brf 0x80001B00 = .ok .but33 ∧
    decodeField .brf 0x80001C00 = .ok .but34 ∧
    decodeField .brf 0x80001D00 = .ok .but35 ∧
    decodeField .brf 0x80001E00 = .ok .but36 ∧
    decodeField .brf 0x80001F00 = .ok .but37 := by
  decide

theorem test_decode_clk :
    decodeField .clkf 0x80000000 = .ok .clk0 ∧
    decodeField .clkf 0x80800000 = .ok .clk1 ∧
    decodeField .clkf 0x81000000 = .ok .clk2 ∧
    decodeField .clkf 0x81800000 = .ok .clk3 ∧
    decodeField .clkf 0x82000000 = .ok .clk4 ∧
    decodeField .clkf 0x82800000 = .ok .clk5 ∧
    decodeField .clkf 0x83000000 = .ok .clk6 ∧
    decodeField .clkf 0x83800000 = .ok .clk7 := by
  decide

/-- Bits 30:26 are ignored (R64). -/
theorem test_unpack_ignores_bits : unpack 0xFC800016 = unpack 0x80800016 := by decide

/-- The packed words of programs P1 to P5 (95_test_vectors.md section 3). -/
theorem test_pack_programs :
    pack (word 0o026 0 1) = 0x80800016 ∧ pack (word 0o030 0 3) = 0x81800018 ∧ pack (word 0o040 0 5) = 0x82800020 ∧
    pack (word 0 0 2) = 0x81000000 ∧ pack (word 0o020 0o06 1) = 0x80800610 ∧ pack (word 0o004 0o12 7) = 0x83800A04 ∧
    pack (word 0o020 0o24 6) = 0x83001410 ∧ pack (word 0o020 0o23 0) = 0x80001310 := by
  decide

/-! ## Table words, and running one as the first instruction -/

theorem test_table_word_names :
    decodeTableWord 32 0 = some .impl0 ∧ decodeTableWord 32 0x80000000 = some .impl1 ∧
    decodeTableWord 32 0x80018000 = some .bc14 ∧ decodeTableWord 32 0x80180000 = some .bmh3 ∧
    decodeTableWord 32 0x80001F00 = some .but37 ∧ decodeTableWord 32 0x83800000 = some .clk7 := by
  decide

/-- CLK.5 as the first instruction after reset: the cycle fetches it and ends in CL3 (R104). -/
theorem test_first_clk5 :
    columns (step (State.reset.withFetchWord 32 0x82800000)) = some ⟨.cl3, 0, 0, 0, 0, 0, none⟩ := by
  decide

/-- BUT.23 as the first instruction after reset: the abort of S6 (R189). -/
theorem test_first_but23 :
    columns (step (State.reset.withFetchWord 32 0x80001300)) =
      some ⟨.cl1, 0, 0, 0, 0, 0, some ⟨.invalidSelector, .branchEvaluator, 0o23, 0⟩⟩ := by
  decide

/-- IMPL.0 as the first instruction after reset: the abort of S4 (R45). -/
theorem test_first_impl0 :
    columns (step (State.reset.withFetchWord 32 0)) =
      some ⟨.cl1, 0, 0, 0, 0, 0, some ⟨.unimplementedMicroaddress, .microRom, 0, 0⟩⟩ := by
  decide

/-- BC.02 as the first instruction after reset: BC_OUT is 2 (R113). -/
theorem test_first_bc02 : step (State.reset.withFetchWord 32 0x80004000) =
    .next { State.reset.withFetchWord 32 0x80004000 with moves := [], bcOut := 2 } := rfl

/-! ## The environment's schedule (10_state.md R31) -/

/-- A cycle may come before another move: it is taken, and the write of the switch is still to come. -/
theorem test_cycle_before_switch_write :
    columns (step (interleaved (word 0o30 0o06 3))) = some ⟨.cl2, 0o26, 0o26, 0, 0, 0, none⟩ ∧
    (match step (interleaved (word 0o30 0o06 3)) with | .next t => t.moves | _ => []) = [.writeSwitch true, .cycle] := by
  decide

/-- And the write then falls between two cycles: the next one, fetching a word with BUT.06, sees it (R283). -/
theorem test_switch_write_between_cycles :
    step { led (word 0 0o06 1) with moves := [.writeSwitch true, .cycle] } =
      .next { led (word 0 0o06 1) with sw := true, moves := [.cycle] } ∧
    columns (step { led (word 0 0o06 1) with sw := true, moves := [.cycle] }) =
      some ⟨.cl1, 0o26, 0o26, 0, 0, 1, none⟩ :=
  ⟨rfl, by decide⟩

/-- Two evaluations of DMUX_OUT each see their own values on the ports, with no move between them (R28). -/
theorem test_fresh_inputs_at_each_evaluation :
    (match step { asked (.dmuxOut 0xBEEF 0 false) (word 0 0 1) with busRd := 7 } with
      | .next t => t.dmuxOut | _ => 0) = 0xBEEF ∧
    (match step (asked (.dmuxOut 0x1111 0 false) (word 0 0 1)) with | .next t => t.dmuxOut | _ => 0) = 0x1111 := by
  decide

/-- Program P1. -/
def romP1 : Memory := [(0, word 0o26 0 1), (0o26, word 0o30 0 3), (0o30, word 0o40 0 5), (0o40, word 0 0 2)]

/-- The environment reads the ROM beside the exposed registers (R29): entry 0o26 of P1 shows its program field. -/
theorem test_read_ports_show_the_rom :
    (Memory.read (State.resetWith {} romP1).readPorts.rom 0o26).map (·.prog) = some 0o30 ∧
    (State.resetWith {} romP1).readPorts.ptr = 0 ∧ (State.resetWith {} romP1).readPorts.mode = .cl1 := by
  decide

/-! ## The spec's vectors, component by component (95_test_vectors.md sections 1 and 2) -/

theorem test_pulse_vectors :
    pulseSlots .cl1 = [.p1, .none] ∧ pulseSlots .cl2 = [.p2, .none] ∧ pulseSlots .cl3 = [.p2, .p3] ∧
    pulseCount .off = 0 ∧ due .p1 .cl1 = true ∧ due .p2 .cl2 = true ∧ due .p2 .cl3 = false ∧ due .p3 .cl3 = true ∧
    due .none .cl1 = false := by
  decide

theorem test_clock_vectors :
    [1, 2, 3, 4, 5, 6].map clockSelect = [.value .cl1, .value .cl1, .value .cl2, .value .cl2, .value .cl3, .value .cl3] ∧
    [0, 7].map clockSelect =
      [.raised ⟨.impossibleClockState, .microCycleEngine, 0⟩, .raised ⟨.impossibleClockState, .microCycleEngine, 7⟩] := by
  decide

theorem test_constant_vectors :
    [0, 1, 2].map (fun n => bConst n true) = [.value 0, .value 1, .value 2] ∧ bConst 0o14 true = .value 0 ∧
    [4, 5, 6, 16].map (fun n => bConst n false) =
      [4, 5, 6, 16].map (fun n => .raised ⟨.invalidSelector, .bConstantGenerator, n⟩) ∧
    [3, 7, 0o11, 0o16].map (fun n => bConst n false) =
      [3, 7, 0o11, 0o16].map (fun n => .raised ⟨.unspecifiedSelector, .bConstantGenerator, n⟩) := by
  decide

theorem test_bmux_vectors_bit7_clear : (List.range 16).map (fun n => bMux n 0x1234 0xABCD) =
    [0x1234, 0x1234, 0x1212, 0x12CD, 0x0034, 0x0034, 0x0012, 0x00CD, 0x3434, 0x3434, 0x3412, 0x34CD, 0xAB34, 0xAB34,
      0xAB12, 0xABCD].map Result.value := by
  decide

theorem test_bmux_vectors_bit7_set : (List.range 16).map (fun n => bMux n 0x1284 0xABCD) =
    [0x1284, 0x1284, 0x1212, 0x12CD, 0xFF84, 0xFF84, 0xFF12, 0xFFCD, 0x8484, 0x8484, 0x8412, 0x84CD, 0xAB84, 0xAB84,
      0xAB12, 0xABCD].map Result.value := by
  decide

/-- The generator's abort precedes the B-mux (R142, section 2.3): BCS 0o04 with BMS 0o00. -/
theorem test_bmux_eager : columns (step (asked .bmuxOut { word 0 0 1 with bcs := 0o04 })) =
    some ⟨.cl1, 0, 0, 0, 0, 0, some ⟨.invalidSelector, .bConstantGenerator, 4, 0⟩⟩ := by
  decide

theorem test_dmux_vectors :
    [0, 1, 2].map (fun n => dMux n 0xBEEF 0x1111 0x2222 true) = [.value 0xBEEF, .value 0x1111, .value 0x2222] ∧
    dMux 3 0 0 0x0001 true = .value 0x8000 ∧ dMux 3 0 0 0x8000 false = .value 0x4000 ∧
    dMux 3 0 0 0x1234 true = .value 0x891A ∧ dMux 3 0 0 0x8001 true = .value 0xC000 ∧
    dMux 4 0 0 0 false = .raised ⟨.invalidSelector, .dMux, 4⟩ := by
  decide

theorem test_branch_vectors :
    branchEval 0 true true = .value 0 ∧ branchEval 0o06 true false = .value 1 ∧ branchEval 0o06 false true = .value 0 ∧
    branchEval 0o12 false true = .value 1 ∧ branchEval 0o12 true false = .value 0 ∧ branchEval 0o24 true true = .value 0 ∧
    branchEval 0o23 true true = .raised ⟨.invalidSelector, .branchEvaluator, 0o23⟩ ∧
    branchEval 0o40 true true = .raised ⟨.invalidSelector, .branchEvaluator, 0o40⟩ ∧
    [0o01, 0o07, 0o20, 0o26, 0o32, 0o37].map (fun f => branchEval f true true) =
      [0o01, 0o07, 0o20, 0o26, 0o32, 0o37].map fun f => .raised ⟨.unspecifiedSelector, .branchEvaluator, f⟩ := by
  decide

theorem test_zero_detect_vectors :
    dIsZero 0x0000 = true ∧ dIsZero 0x0001 = false ∧ dIsZero 0x8000 = false := by decide

/-! ## The register-transfer step (section 2.6) -/

theorem test_rt_branch_taken :
    columns (rtStep (before [(0o31, word 0 0 1)] 0o20 (word 0o30 0 1) 1 0)) =
      some ⟨.cl1, 0o31, 0o31, 0o20, 0, 0, none⟩ := by
  decide

theorem test_rt_or_not_add :
    columns (rtStep (before [(0o27, word 0 0 1)] 0o20 (word 0o27 0 1) 1 0)) =
      some ⟨.cl1, 0o27, 0o27, 0o20, 0, 0, none⟩ ∧
    columns (rtStep (before [(0o377, word 0 0 1)] 0o20 (word 0o377 0 1) 3 0)) =
      some ⟨.cl1, 0o377, 0o377, 0o20, 0, 0, none⟩ := by
  decide

theorem test_rt_shadow_moves :
    columns (rtStep (before [(0o20, word 0 0 1)] 0o10 (word 0o20 0 1) 0 1)) =
      some ⟨.cl1, 0o20, 0o20, 0o10, 1, 0, none⟩ := by
  decide

theorem test_rt_evaluates_the_fetched_word :
    columns (rtStep (writeSwitch true (before [(0o20, word 0 0o06 1)] 0o10 (word 0o20 0 1) 0 0))) =
      some ⟨.cl1, 0o20, 0o20, 0o10, 0, 1, none⟩ := by
  decide

theorem test_rt_unimplemented :
    columns (rtStep (before [] 0o10 (word 0o21 0 1) 0 0)) =
      some ⟨.cl1, 0o21, 0o21, 0o10, 0, 0, some ⟨.unimplementedMicroaddress, .microRom, 0o21, 0o21⟩⟩ := by
  decide

/-! ## One step of each micro-program (section 3) -/

/-- Program P2. -/
def romP2 : Memory :=
  [(0, word 0o10 0 1), (0o10, word 0o20 0o06 1), (0o20, word 0o30 0 1), (0o30, word 0o10 0 1), (0o31, word 0o31 0 1)]

/-- Program P3. -/
def romP3 : Memory := [(0, word 0o04 0o12 7), (0o04, word 0o10 0o12 1), (0o10, word 0o20 0o24 6), (0o20, word 0 0 1)]

theorem test_p1_cycle_one :
    columns (step (State.resetWith {} romP1)) = some ⟨.cl2, 0o26, 0o26, 0, 0, 0, none⟩ := by decide

theorem test_p1_cycle_three :
    columns (step (setMode .cl3 (before romP1 0o30 (word 0o40 0 5) 0 0))) =
      some ⟨.cl1, 0o40, 0o40, 0o30, 0, 0, none⟩ := by
  decide

/-- Run A, cycle 4: the switch is sampled when the word at 0o10 is fetched. -/
theorem test_p2_sample :
    columns (step (writeSwitch true (before romP2 0o30 (word 0o10 0 1) 0 0))) =
      some ⟨.cl1, 0o10, 0o10, 0o30, 0, 1, none⟩ := by
  decide

/-- Run A, cycle 6: and used two steps later, `0o30 | 1`. -/
theorem test_p2_use :
    columns (step (before romP2 0o20 (word 0o30 0 1) 1 0)) = some ⟨.cl1, 0o31, 0o31, 0o20, 0, 0, none⟩ := by decide

/-- Run A, cycle 4: the clock-field abort at step 3. -/
theorem test_p3_clock_abort :
    columns (step { before romP3 0o20 (word 0 0 1) 0 0 with d := 5 }) =
      some ⟨.cl1, 0, 0, 0o20, 0, 0, some ⟨.impossibleClockState, .microCycleEngine, 7, 0⟩⟩ := by
  decide

/-- Run B, cycle 3: the abort at S4, the mode still CL3. -/
theorem test_p3_fetch_abort :
    columns (step (setMode .cl3 (before romP3 0o10 (word 0o20 0o24 6) 1 0))) =
      some ⟨.cl3, 0o21, 0o21, 0o10, 1, 0, some ⟨.unimplementedMicroaddress, .microRom, 0o21, 0o21⟩⟩ := by
  decide

/-- Program P4: the branch evaluator's abort comes first. -/
theorem test_p4 :
    columns (step (State.resetWith {} [(0, word 0o10 0 1), (0o10, word 0o20 0o23 0)])) =
      some ⟨.cl1, 0o10, 0o10, 0, 0, 0, some ⟨.invalidSelector, .branchEvaluator, 0o23, 0o10⟩⟩ := by
  decide

/-- Program P5: the clock-field abort after a complete register-transfer step. -/
theorem test_p5 :
    columns (step (State.resetWith {} [(0, word 0o10 0 1), (0o10, word 0o20 0 0)])) =
      some ⟨.cl1, 0o10, 0o10, 0, 0, 0, some ⟨.impossibleClockState, .microCycleEngine, 0, 0o10⟩⟩ := by
  decide

/-- A cycle with mode OFF is refused (section 4). -/
theorem test_cycle_in_off : cycle (setMode .off (led (word 0 0 1))) = .refused .cycleInOff := rfl

theorem test_reset_rom_wf : Memory.wf State.reset.rom = true := rfl

/-! ## Witnesses: for every claim with hypotheses, states and operands that meet them -/

theorem witness_UnpackOfPackGivesTheRecord :
    (word 0 0 0).wf = true ∧ MicroWord.wf ⟨0o377, 31, 15, 15, 3, 7, ⟨1, 2, 3, 4, 5⟩⟩ = true ∧
    unpack 0x80800016 = some (word 0o26 0 1) := by
  decide

theorem witness_PackOfUnpackGivesTheWord : unpack 0x80800016 = some (word 0o26 0 1) ∧ unpack 0x00000016 = none := by
  decide

theorem witness_EveryFieldSelectsTheRowOfItsBits :
    (0x80000000 : PackedWord).getLsbD 31 = true ∧ (0xFFFFFFFF : PackedWord).getLsbD 31 = true ∧
    (0x7FFFFFFF : PackedWord).getLsbD 31 = false ∧ Field.brf ≠ .impl := by
  decide

theorem witness_ExactlyOnePulseOfACycleIsDue : ClockMode.cl1 ≠ .off ∧ ClockMode.cl3 ≠ .off := by decide

theorem witness_DuePulses :
    Pulse.p1 ∈ activePulses .cl1 ∧ Pulse.p3 ∈ activePulses .cl3 ∧ (led (word 0 0 1)).fault = none ∧
    (∃ t, pulseStep .cl1 .p1 (led (word 0 0 1)) = .next t) ∧ ∃ t, pulseStep .cl3 .p2 (led (word 0 0 1)) = .next t :=
  ⟨by decide, by decide, rfl, ⟨_, rfl⟩, ⟨_, rfl⟩⟩

theorem witness_ClockSelectionByValue :
    (1 ≤ 1 ∧ 1 ≤ 2) ∧ (1 ≤ 2 ∧ 2 ≤ 2) ∧ (3 ≤ 3 ∧ 3 ≤ 4) ∧ (3 ≤ 4 ∧ 4 ≤ 4) ∧ (5 ≤ 5 ∧ 5 ≤ 6) ∧ (5 ≤ 6 ∧ 6 ≤ 6) ∧
    (0 = 0 ∨ 6 < 0) ∧ (7 = 0 ∨ 6 < 7) ∧ (led (word 0 0 1)).fault = none ∧ (led (word 0 0 1)).Ready :=
  ⟨by decide, by decide, by decide, by decide, by decide, by decide, by decide, by decide, rfl, led_ready _⟩

theorem witness_ClockRowsWriteTheMode :
    (∀ c ∈ [1, 2, 3, 4, 5, 6], (place .clkf c).getLsbD 31 = true ∧ ((place .clkf c).extractLsb' 23 3).toNat = c) ∧
    (∀ c, (led (word 0 0 c)).fault = none ∧ (led (word 0 0 c)).Ready) ∧
    ∀ c ∈ [1, 2, 3, 4, 5, 6], ∃ t, step (led (word 0 0 c)) = .next t ∧ t.fault = none ∧ t.cw.clkf = c := by
  refine ⟨by decide, fun c => ⟨rfl, led_ready _⟩, fun c hc => ?_⟩
  simp only [List.mem_cons, List.not_mem_nil, or_false] at hc
  rcases hc with rfl | rfl | rfl | rfl | rfl | rfl <;> exact ⟨_, rfl, rfl, rfl⟩

theorem witness_ImpossibleClockRowsAbort :
    (∀ c ∈ [0, 7], (place .clkf c).getLsbD 31 = true ∧ ((place .clkf c).extractLsb' 23 3).toNat = c) ∧
    ∀ c, (led (word 0 0 c)).Ready ∧
      Memory.read (led (word 0 0 c)).rom ((led (word 0 0 c)).cw.prog ||| (led (word 0 0 c)).but).toNat =
        some (word 0 0 c) ∧
      (word 0 0 c).clkf = c ∧ branchEval 0 (led (word 0 0 c)).sw ((led (word 0 0 c)).d == 0) = .value 0 :=
  ⟨by decide, fun _ => ⟨led_ready _, led_read _, rfl, rfl⟩⟩

/-- Of the four claims about the rows of the constant generator, for every one of its sixteen values. -/
theorem witness_ConstantRows :
    (∀ v ∈ List.range 16, (place .bcs v).getLsbD 31 = true ∧ ((place .bcs v).extractLsb' 13 4).toNat = v) ∧
    ∀ v, (asked .bcOut { word 0 0 1 with bcs := v }).fault = none ∧
      (asked .bcOut { word 0 0 1 with bcs := v }).moves = [.evaluate .bcOut] ∧
      (asked .bcOut { word 0 0 1 with bcs := v }).cw.bcs = v :=
  ⟨by decide, fun _ => ⟨rfl, rfl, rfl⟩⟩

theorem witness_ConstantGeneratorRangeAndCondition :
    16 ≤ 16 ∧ unpack 0x8001E000 = some { word 0 0 0 with bcs := 15 } ∧ (0o13 : Nat) ≠ 0o14 ∧ (0o15 : Nat) ≠ 0o14 ∧
    (asked .bcOut (word 0 0 1)).fault = none ∧ (asked .bcOut (word 0 0 1)).moves = [.evaluate .bcOut] := by
  decide

/-- Of the two claims about the half rows, for every value of both halves. -/
theorem witness_HalfRows :
    (∀ v ∈ List.range 4, (place .bml v).getLsbD 31 = true ∧ ((place .bml v).extractLsb' 17 2).toNat = v) ∧
    (∀ v ∈ List.range 4, (place .bmh v).getLsbD 31 = true ∧ ((place .bmh v).extractLsb' 19 2).toNat = v) ∧
    (led (word 0 0 1)).fault = none := by
  decide

theorem witness_BMuxSelectsEachHalfByItself :
    0 < 16 ∧ 15 < 16 ∧ 16 ≤ 16 ∧ (asked .bmuxOut { word 0 0 1 with bms := 16 }).fault = none ∧
    16 ≤ (asked .bmuxOut { word 0 0 1 with bms := 16 }).cw.bms ∧
    unpack 0x801E0000 = some { word 0 0 0 with bms := 15 } := by
  decide

theorem witness_BmuxOutIsTheMuxOfTheGeneratedConstant :
    (asked .bmuxOut (word 0 0 1)).fault = none ∧
    (asked .bmuxOut (word 0 0 1)).moves = [.evaluate .bmuxOut] := by
  decide

/-- Of the claims about the rows of the D-mux, for every one of its four values, and of the shift's bits. -/
theorem witness_DMuxRows :
    (∀ v ∈ List.range 4, (place .dms v).getLsbD 31 = true ∧ ((place .dms v).extractLsb' 21 2).toNat = v) ∧
    (led (word 0 0 1)).fault = none ∧ 0 < 15 ∧ 14 < 15 := by
  decide

theorem witness_DMuxByItsSelector :
    4 ≤ 4 ∧ (led (word 0 0 1)).fault = none ∧ unpack 0x80600000 = some { word 0 0 0 with dms := 3 } := by
  decide

theorem witness_DmuxOutIsTheMuxOfThePorts :
    (asked (.dmuxOut 1 2 true) (word 0 0 1)).fault = none ∧
    (asked (.dmuxOut 1 2 true) (word 0 0 1)).moves = [.evaluate (.dmuxOut 1 2 true)] := by
  decide

/-- Of the claims about the rows of the branch evaluator, for every one of its thirty-two values. -/
theorem witness_BranchRows :
    (∀ v ∈ List.range 32, (place .brf v).getLsbD 31 = true ∧ ((place .brf v).extractLsb' 8 5).toNat = v) ∧
    ∀ v, (led (word 0 v 1)).fault = none ∧ (led (word 0 v 1)).Ready ∧
      Memory.read (led (word 0 v 1)).rom ((led (word 0 v 1)).cw.prog ||| (led (word 0 v 1)).but).toNat =
        some (word 0 v 1) ∧
      (word 0 v 1).brf = v :=
  ⟨by decide, fun _ => ⟨rfl, led_ready _, led_read _, rfl⟩⟩

theorem witness_BranchEvaluatorOnEveryField :
    0o00 ∈ [0o00, 0o06, 0o12, 0o24] ∧ 0o24 ∈ [0o00, 0o06, 0o12, 0o24] ∧ (0o23 = 0o23 ∨ 32 ≤ 0o23) ∧
    (0o40 = 0o23 ∨ 32 ≤ 0o40) ∧ (0o01 < 32 ∧ 0o01 ∉ [0o00, 0o06, 0o12, 0o23, 0o24]) ∧
    0o37 < 32 ∧ 0o37 ∉ [0o00, 0o06, 0o12, 0o23, 0o24] := by
  decide

theorem witness_RomFetchContract :
    Memory.read romP1 (0o40 : MicroAddr).toNat = some (word 0 0 2) ∧ Memory.read romP1 (0o377 : MicroAddr).toNat = none ∧
    (before romP1 0o377 (word 0 0 1) 0 0).fault = none ∧
    Memory.read (before romP1 0o377 (word 0 0 1) 0 0).rom (before romP1 0o377 (word 0 0 1) 0 0).ptr.toNat = none := by
  decide

theorem witness_FetchOfAnImplementedEntryLatchesIt :
    (0x80000000 : PackedWord).getLsbD 31 = true ∧ (before romP1 0o26 (word 0 0 1) 0 0).fault = none ∧
    Memory.read (before romP1 0o26 (word 0 0 1) 0 0).rom (before romP1 0o26 (word 0 0 1) 0 0).ptr.toNat =
      some (word 0o30 0 3) := by
  decide

theorem witness_FetchOfAnUnimplementedEntryAborts :
    (0x7FFFFFFF : PackedWord).getLsbD 31 = false ∧ (before [] 0o10 (word 0o21 0 1) 0 0).Ready ∧
    Memory.read (before [] 0o10 (word 0o21 0 1) 0 0).rom
      ((before [] 0o10 (word 0o21 0 1) 0 0).cw.prog ||| (before [] 0o10 (word 0o21 0 1) 0 0).but).toNat = none :=
  ⟨by decide, ⟨rfl, by show ClockMode.cl1 ≠ .off; decide, rfl⟩, rfl⟩

theorem witness_RomIsNeverWritten :
    (∃ t, step (led (word 0 0 1)) = .next t) ∧ ∃ t, exec .impl1 (before romP1 0o26 (word 0 0 1) 0 0) = .next t :=
  ⟨⟨_, rfl⟩, ⟨_, rfl⟩⟩

theorem witness_LoadingAnEntryChangesThatEntryOnly :
    Memory.wf romP1 = true ∧ (0o26 : MicroAddr) ≠ 0o27 ∧ Memory.wf [] = true ∧
    ∀ a : MicroAddr, Memory.read romP1 a.toNat = Memory.read romP1 a.toNat :=
  ⟨by decide, by decide, by decide, fun _ => rfl⟩

theorem witness_ProgramFieldFormsTheNextAddress :
    (0x80000016 : PackedWord).getLsbD 31 = true ∧ (led (word 0 0 1)).fault = none ∧ (led (word 0 0 1)).Ready ∧
    (∃ t, step (led (word 0 0 1)) = .next t ∧ t.fault = none) ∧ (before [] 0o10 (word 0o21 0 1) 0 0).Ready ∧
    ∃ t, step (before [] 0o10 (word 0o21 0 1) 0 0) = .next t ∧
      Memory.read (before [] 0o10 (word 0o21 0 1) 0 0).rom t.ptr.toNat = none :=
  ⟨by decide, rfl, led_ready _, ⟨_, rfl, rfl⟩, ⟨rfl, by show ClockMode.cl1 ≠ .off; decide, rfl⟩, ⟨_, rfl, rfl⟩⟩

/-- Also of the cycle as one function of the state and of the register-transfer step. -/
theorem witness_CycleIsOneFunctionOfTheState :
    (led (word 0 0 1)).fault = none ∧ (led (word 0 0 1)).Ready ∧ (interleaved (word 0 0 1)).Ready :=
  ⟨rfl, led_ready _, interleaved_ready _⟩

theorem witness_PulseNotDueChangesNothing : due .p2 .cl3 = false ∧ due .none .cl1 = false := by decide

theorem witness_CycleEndsInTheSelectedMode :
    (led (word 0 0 1)).Ready ∧ (∃ t, step (led (word 0 0 1)) = .next t ∧ t.fault = none) ∧
    (led (word 0 0 7)).Ready ∧ (∃ t, step (led (word 0 0 7)) = .next t ∧ t.fault ≠ none) ∧
    (∃ u c, rtStep (led (word 0 0 7)) = .next u ∧ u.fault = none ∧ clockSelect u.cw.clkf = .raised c) ∧
    (moved (.evaluate .bcOut)).nextMove ≠ .cycle ∧ ∃ t, step (moved (.evaluate .bcOut)) = .next t :=
  ⟨led_ready _, ⟨_, rfl, rfl⟩, led_ready _, ⟨_, rfl, by decide⟩, ⟨_, _, rfl, rfl, rfl⟩, by decide, ⟨_, rfl⟩⟩

theorem witness_StepRunsTheDecodedRows :
    (led (word 0o20 0o24 6)).Ready ∧
    Memory.read (led (word 0o20 0o24 6)).rom
      ((led (word 0o20 0o24 6)).cw.prog ||| (led (word 0o20 0o24 6)).but).toNat = unpack 0x83001410 ∧
    decodeField .brf 0x83001410 = .ok .but24 ∧ decodeField .clkf 0x83001410 = .ok .clk6 ∧
    Memory.read (before [] 0o10 (word 0o21 0 1) 0 0).rom
      ((before [] 0o10 (word 0o21 0 1) 0 0).cw.prog ||| (before [] 0o10 (word 0o21 0 1) 0 0).but).toNat = unpack 0 ∧
    (0 : PackedWord).getLsbD 31 = false :=
  ⟨led_ready _, rfl, rfl, rfl, rfl, rfl⟩

theorem witness_EvaluationRunsTheDecodedRows :
    (∀ o, (asked o ⟨0, 0, 0o14, 0o16, 3, 0, {}⟩).fault = none ∧
      unpack 0x807D8000 = some (asked o ⟨0, 0, 0o14, 0o16, 3, 0, {}⟩).cw ∧
      (asked o ⟨0, 0, 0o14, 0o16, 3, 0, {}⟩).moves = [.evaluate o]) ∧
    decodeField .bcs 0x807D8000 = .ok .bc14 ∧ decodeField .bml 0x807D8000 = .ok .bml2 ∧
    decodeField .bmh 0x807D8000 = .ok .bmh3 ∧ decodeField .dms 0x807D8000 = .ok .dm3 :=
  ⟨fun _ => ⟨rfl, rfl, rfl⟩, rfl, rfl, rfl, rfl⟩

/-- The states of program P2 run from reset with the switch pressed throughout. -/
def statesP2 : Nat → State
  | 0 => State.resetWith {} romP2
  | k + 1 =>
    match step { statesP2 k with sw := true } with
    | .next t => t
    | .fault _ => statesP2 k
    | .refused _ => statesP2 k

theorem witness_BranchValueIsUsedTwoStepsLater :
    statesP2 0 = State.resetWith {} romP2 ∧
    ∀ k, k < 3 → step { statesP2 k with sw := (fun _ => true) k } = .next (statesP2 (k + 1)) ∧
      (statesP2 (k + 1)).fault = none := by
  refine ⟨rfl, fun k hk => ?_⟩
  interval_cases k <;> exact ⟨rfl, rfl⟩

theorem witness_CompletedCycleDoesNotDependOnTheMode :
    (led (word 0 0 1)).Ready ∧ ClockMode.cl3 ≠ .off ∧ ∃ t, step (led (word 0 0 1)) = .next t ∧ t.fault = none :=
  ⟨led_ready _, by decide, ⟨_, rfl, rfl⟩⟩

theorem witness_FirstCycleOfTheDocumentsScenario :
    Memory.read [(0, word 0o26 0 1), (0o26, word 0o30 0 1)] 0 = some (word 0o26 0 1) ∧ (word 0o26 0 1).prog = 0o26 ∧
    Memory.read [(0, word 0o26 0 1), (0o26, word 0o30 0 1)] 0o26 = some (word 0o30 0 1) ∧
    branchOk (word 0o30 0 1) = true ∧ ((word 0o30 0 1).clkf = 1 ∨ (word 0o30 0 1).clkf = 2) ∧
    (word 0o30 0 2).clkf = 2 := by
  decide

theorem witness_NothingRunsAfterAnAbort :
    State.reset.fault = some ⟨.unimplementedMicroaddress, .microRom, 0, 0⟩ := rfl

theorem witness_StepStopsOnlyForACycleInOff :
    ((setMode .off (led (word 0 0 1))).fault = none ∧ (setMode .off (led (word 0 0 1))).mode = .off ∧
      (setMode .off (led (word 0 0 1))).nextMove = .cycle ∧ (setMode .off (moved .cycle)).nextMove = .cycle) ∧
    (setMode .off (moved (.writeSwitch true))).nextMove ≠ .cycle ∧ (led (word 0 0 1)).mode ≠ .off := by
  decide

/-- A next state of a row of each field, and one with an abort. -/
theorem witness_EachRowWritesOnlyItsOwnElements :
    (∃ t, exec .impl0 (led (word 0 0 1)) = .next t ∧ t.fault ≠ none) ∧
    (∃ t, exec (.prog 0o377) (led (word 0 0 1)) = .next t) ∧ (∃ t, exec .bc14 (led (word 0 0 1)) = .next t) ∧
    (∃ t, exec .bml3 (led (word 0 0 1)) = .next t) ∧ (∃ t, exec .bmh3 (led (word 0 0 1)) = .next t) ∧
    (∃ t, exec .dm3 (led (word 0 0 1)) = .next t) ∧ (∃ t, exec .but06 (led (word 0 0 1)) = .next t) ∧
    ∃ t, exec .clk6 (led (word 0 0 1)) = .next t :=
  ⟨⟨_, rfl, by decide⟩, ⟨_, rfl⟩, ⟨_, rfl⟩, ⟨_, rfl⟩, ⟨_, rfl⟩, ⟨_, rfl⟩, ⟨_, rfl⟩, ⟨_, rfl⟩⟩

theorem witness_StepKeepsWorkingRegistersAndConditions :
    (∃ t, step (led (word 0 0 1)) = .next t) ∧ (∀ x, (led (word 0 0 1)).nextMove ≠ .writeSwitch x) ∧
    ∀ r u c, (led (word 0 0 1)).nextMove ≠ .drive r u c ∧ (led (word 0 0 1)).nextMove ≠ .evaluate (.dmuxOut r u c) :=
  ⟨⟨_, rfl⟩, fun _ h => EnvMove.noConfusion h, fun _ _ _ => ⟨fun h => EnvMove.noConfusion h, fun h => EnvMove.noConfusion h⟩⟩

theorem witness_EnvironmentMovesWriteOnlyTheirPort :
    (moved (.writeSwitch true)).fault = none ∧ (moved (.writeSwitch true)).moves = [.writeSwitch true] ∧
    (moved (.drive 1 2 true)).fault = none ∧ (moved (.drive 1 2 true)).moves = [.drive 1 2 true] ∧
    (interleaved (word 0 0 1)).fault = none ∧
    (interleaved (word 0 0 1)).moves = .cycle :: [.writeSwitch true, .cycle] ∧ (led (word 0 0 1)).moves = [] ∧
    ∃ t, step (interleaved (word 0 0 1)) = .next t :=
  ⟨rfl, rfl, rfl, rfl, rfl, rfl, rfl, ⟨_, rfl⟩⟩

theorem witness_SwitchReachesACycleOnlyThroughBranchRowSix :
    (led (word 0 0o12 1)).Ready ∧
    (led (word 0 0o12 1)).eraseSwitch = State.eraseSwitch { led (word 0 0o12 1) with sw := true, disp := 7 } ∧
    ∀ w, Memory.read (led (word 0 0o12 1)).rom
      ((led (word 0 0o12 1)).cw.prog ||| (led (word 0 0o12 1)).but).toNat = some w → w.brf ≠ 0o06 := by
  refine ⟨led_ready _, rfl, fun w h => ?_⟩
  rw [led_read] at h
  cases h
  decide

theorem witness_UninterpretedFieldsAreNotRead :
    (led (word 0 0 1)).eraseRest = State.eraseRest (led { word 0 0 1 with rest := ⟨1, 2, 3, 4, 5⟩ }) := by
  decide

theorem witness_DataPathDoesNotReachACycle :
    (led (word 0 0 1)).Ready ∧
    (led (word 0 0 1)).eraseDataPath =
      State.eraseDataPath { led { word 0 0 1 with bcs := 0o04, bms := 3, dms := 3 } with b := 1, sclk := true, busRd := 9 } :=
  ⟨led_ready _, rfl⟩

theorem witness_ResetLeavesTheStatedValues :
    Memory.read romP1 0 = some (word 0o26 0 1) ∧ Memory.read [] 0 = none := by
  decide

theorem witness_StepKeepsTheInvariant :
    (State.resetWith {} romP1).Inv ∧ ∃ t, step (State.resetWith {} romP1) = .next t :=
  ⟨⟨by decide, by decide, by decide, by decide, fun _ => by decide⟩, ⟨_, rfl⟩⟩

/-- A program that runs clean in two addresses, each leading into the set with its low bit set or not. -/
def romClean : Memory := [(0, word 0o10 0 1), (0o10, word 0o10 0o06 3), (0o11, word 0o11 0o24 6)]

theorem romClean_runsClean : RunsClean romClean [0o10, 0o11] := by
  intro a ha
  simp only [List.mem_cons, List.not_mem_nil, or_false] at ha
  rcases ha with rfl | rfl
  · exact ⟨word 0o10 0o06 3, by decide, by decide, by decide, by decide, by decide⟩
  · exact ⟨word 0o11 0o24 6, by decide, by decide, by decide, by decide, by decide⟩

theorem romClean_datapathClean : datapathClean (word 0o10 0 1) = true ∧
    ∀ a ∈ [(0o10 : MicroAddr), 0o11], ∀ w, Memory.read romClean a.toNat = some w → datapathClean w = true := by
  refine ⟨by decide, fun a ha w h => ?_⟩
  simp only [List.mem_cons, List.not_mem_nil, or_false] at ha
  rcases ha with rfl | rfl <;> (cases h; decide)

theorem witness_ResetMeetsTheInvariant :
    Memory.wf romP1 = true ∧ (3 : Byte).toNat < 4 ∧ Memory.read romClean 0 = some (word 0o10 0 1) ∧
    (word 0o10 0 1).prog ∈ [(0o10 : MicroAddr), 0o11] ∧ (word 0o10 0 1).prog ||| 1 ∈ [(0o10 : MicroAddr), 0o11] ∧
    (1 : Byte).toNat ≤ 1 ∧ ∀ e ∈ [EnvMove.cycle, .writeSwitch true, .cycle, .drive 1 2 true], e.quiet = true := by
  decide

/-- Clean states whose schedule mixes cycles with other moves: quiet ones, and evaluations between cycles. -/
theorem witness_CleanProgramsRunSafely :
    State.Clean [0o10, 0o11]
      { State.resetWith {} romClean with moves := [.cycle, .writeSwitch true, .cycle, .drive 1 2 true] } ∧
    State.Clean [0o10, 0o11]
      { State.resetWith {} romClean with moves := [.cycle, .evaluate (.dmuxOut 1 2 true), .cycle, .evaluate .bmuxOut] } :=
  ⟨⟨rfl, by decide, by decide, by decide, by decide, by decide, romClean_runsClean, .inl (by decide)⟩,
   ⟨rfl, by decide, by decide, by decide, by decide, by decide, romClean_runsClean, .inr romClean_datapathClean⟩⟩

end Sys2Proof.Tests
end

section
/-! PROOFS. The micro-ROM (20_memory.md): the fetch contract, the two rows of the implemented flag, and that nothing
writes the ROM. -/

namespace Sys2Proof.Machine

/-! ## The flag of a packed word -/

/-- The flag field is bit 31 (30_encoding.md R64). -/
theorem fieldRead_impl (W : PackedWord) : Field.impl.read W = (W.getLsbD 31).toNat := by
  rw [Field.read_eq, BitVec.getLsbD, Nat.toNat_testBit]
  rfl

theorem decodeField_impl_of_implemented {W : PackedWord} (hb : W.getLsbD 31 = true) :
    decodeField .impl W = .ok .impl1 :=
  decodeField_of_row hb (by rw [fieldRead_impl, hb]; rfl)

theorem decodeField_impl_of_unimplemented {W : PackedWord} (hb : W.getLsbD 31 = false) :
    decodeField .impl W = .ok .impl0 := by
  rw [decodeField, implBit_eq, hb]
  rfl

/-! ## The fetch -/

theorem romFetch_of_some {rom : Memory} {a : MicroAddr} {w : MicroWord} (h : Memory.read rom a.toNat = some w) :
    romFetch rom a = .value w := by
  simp [romFetch, h]

theorem romFetch_of_none {rom : Memory} {a : MicroAddr} (h : Memory.read rom a.toNat = none) :
    romFetch rom a = .raised ⟨.unimplementedMicroaddress, .microRom, a.toNat⟩ := by
  simp [romFetch, h]

theorem exec_impl0_of_running {s : State} (hf : s.fault = none) :
    exec .impl0 s = .next (raise ⟨.unimplementedMicroaddress, .microRom, s.ptr.toNat⟩ s) := by
  rw [exec, execImpl0, whenRunning_of_none hf]

theorem exec_impl1_of_running {s : State} (hf : s.fault = none) :
    exec .impl1 s = settle (romFetch s.rom s.ptr) latchWord s := by
  rw [exec, execImpl1, whenRunning_of_none hf]

theorem exec_prog_of_running {s : State} (hf : s.fault = none) (p : MicroAddr) :
    exec (.prog p) s = .next (latchPointers (formAddress p s.but) s) := by
  rw [exec, execProg, whenRunning_of_none hf]

/-- The register-transfer step that forms the address of an unimplemented entry ends in S4: the pointers are latched and
the abort is taken (45_micro_cycle_engine.md R213). -/
theorem rtStep_of_unimplemented {s : State} (hf : s.fault = none)
    (hr : Memory.read s.rom s.nextAddress.toNat = none) :
    rtStep s = .next (raise ⟨.unimplementedMicroaddress, .microRom, s.nextAddress.toNat⟩
      (latchPointers s.nextAddress s)) := by
  rw [rtStep, fetchStep_of_running hf, romFetch_of_none hr]
  rfl

/-- The register-transfer step that fetches an implemented entry latches it and goes on with S5 to S7
(45_micro_cycle_engine.md R213). -/
theorem rtStep_of_implemented {s : State} {w : MicroWord} (hf : s.fault = none)
    (hr : Memory.read s.rom s.nextAddress.toNat = some w) :
    rtStep s =
      andThen (settle (branchEval w.brf s.sw (dIsZero s.d)) latchBranch
        (advanceBranch (latchWord w (latchPointers s.nextAddress s)))) fun s => .next (latchDisplay s) := by
  rw [rtStep, fetchStep_of_running hf, romFetch_of_some hr, settle, andThen_of_none (by exact hf), branchStep_eq,
    evalBranch_of_running (by exact hf)]
  rfl

/-! ## What a row, a register-transfer step and a cycle can write -/

theorem eq_impl0_or_impl1_of_field {i : Instr} (h : i.field = .impl) : i = .impl0 ∨ i = .impl1 := by
  cases i <;> simp_all [Instr.field]

theorem exists_eq_prog_of_field {i : Instr} (h : i.field = .prog) : ∃ p, i = .prog p := by
  cases i <;> simp_all [Instr.field]

/-- A row answers a next state only while no abort has occurred. -/
theorem fault_of_exec_next {i : Instr} {s t : State} (h : exec i s = .next t) : s.fault = none := by
  cases hf : s.fault with
  | none => rfl
  | some r =>
    rw [exec_of_aborted hf] at h
    cases h

/-- Everything a row can write, whatever its field: the mode, the current word, the pointers, the in-flux latch, the
output ports and the abort record. -/
theorem exec_next {i : Instr} {s t : State} (h : exec i s = .next t) :
    t = { s with
      mode := t.mode, cw := t.cw, ptr := t.ptr, ptrBuf := t.ptrBuf, ptrPrev := t.ptrPrev, butNext := t.butNext
      bcOut := t.bcOut, bmuxOut := t.bmuxOut, dmuxOut := t.dmuxOut, fault := t.fault } := by
  have hrun := fault_of_exec_next h
  cases hf : i.field with
  | impl =>
    rcases eq_impl0_or_impl1_of_field hf with rfl | rfl
    · rw [exec_impl0_of_running hrun] at h
      cases h
      rfl
    · rw [exec_impl1_of_running hrun] at h
      rcases settle_next h with ⟨w, _, rfl⟩ | ⟨c, _, rfl⟩ <;> rfl
  | prog =>
    obtain ⟨p, rfl⟩ := exists_eq_prog_of_field hf
    rw [exec_prog_of_running hrun] at h
    cases h
    rfl
  | bcs =>
    rw [exec_of_bcs hf, evalConstant_of_running hrun] at h
    rcases settle_next h with ⟨v, _, rfl⟩ | ⟨c, _, rfl⟩ <;> rfl
  | bml =>
    rw [exec_of_bml hf, evalBmuxLow_of_running hrun] at h
    cases h
    rfl
  | bmh =>
    rw [exec_of_bmh hf, evalBmuxHigh_of_running hrun] at h
    cases h
    rfl
  | dms =>
    rw [exec_of_dms hf, evalDmux_of_running hrun] at h
    rcases settle_next h with ⟨v, _, rfl⟩ | ⟨c, _, rfl⟩ <;> rfl
  | brf =>
    rw [exec_of_brf hf, evalBranch_of_running hrun] at h
    rcases settle_next h with ⟨e, _, rfl⟩ | ⟨c, _, rfl⟩ <;> rfl
  | clkf =>
    rw [exec_of_clkf hf, evalClock_of_running hrun] at h
    rcases settle_next h with ⟨m, _, rfl⟩ | ⟨c, _, rfl⟩ <;> rfl

/-- Everything a register-transfer step can write (45_micro_cycle_engine.md R213). -/
theorem rtStep_next {s t : State} (hf : s.fault = none) (h : rtStep s = .next t) :
    t = { s with
      cw := t.cw, ptr := t.ptr, ptrBuf := t.ptrBuf, ptrPrev := t.ptrPrev, but := t.but, butNext := t.butNext
      disp := t.disp, draws := t.draws, fault := t.fault } := by
  cases hr : Memory.read s.rom s.nextAddress.toNat with
  | none =>
    rw [rtStep_of_unimplemented hf hr] at h
    cases h
    rfl
  | some w =>
    rw [rtStep_of_implemented hf hr] at h
    cases hb : branchEval w.brf s.sw (dIsZero s.d) with
    | raised c =>
      rw [hb] at h
      cases h
      rfl
    | value e =>
      rw [hb, settle, andThen_of_none (by exact hf)] at h
      cases h
      rfl

/-- Everything an enabled cycle can write: the invocation leaves the schedule, the register-transfer step writes its
elements, and the clock selection the mode (45_micro_cycle_engine.md R210). -/
theorem step_next_of_ready {s t : State} (hs : s.Ready) (h : step s = .next t) :
    t = { s with
      moves := s.moves.tail, mode := t.mode
      cw := t.cw, ptr := t.ptr, ptrBuf := t.ptrBuf, ptrPrev := t.ptrPrev, but := t.but, butNext := t.butNext
      disp := t.disp, draws := t.draws, fault := t.fault } := by
  rw [step_of_ready hs] at h
  obtain ⟨u, hrt, hsel⟩ := andThen_next h
  have hu := rtStep_next (by exact hs.running) hrt
  rcases hsel with ⟨hrun, hsel⟩ | ⟨_, rfl⟩
  · rw [selectStep_eq, evalClock_of_running hrun] at hsel
    rcases settle_next hsel with ⟨m, _, rfl⟩ | ⟨c, _, rfl⟩ <;> (rw [hu]; rfl)
  · rw [hu]; rfl

/-! ## Nothing writes the ROM -/

theorem exec_rom {i : Instr} {s t : State} (h : exec i s = .next t) : t.rom = s.rom := by
  rw [exec_next h]

/-- A step is an enabled cycle or another move of the environment, and neither writes the ROM (20_memory.md R46). -/
theorem step_rom {s t : State} (h : step s = .next t) : t.rom = s.rom := by
  obtain ⟨hf, hmove, hready | hother⟩ := step_next h
  · rw [step_next_of_ready hready h]
  · rcases envMove_next (by exact hf) hother hmove with
      ⟨_, _, ht⟩ | ⟨_, _, _, _, ht⟩ | ⟨_, ht⟩ | ⟨_, _, _, _, ht⟩ <;> (rw [ht]; rfl)

/-! ## The obligations -/

/-- Settles O34: the contract by the two cases of the read, and IMPL.1 at an unimplemented entry settles the abort. -/
theorem romFetchContract : Obligations.RomFetchContract := by
  refine ⟨fun rom a => ⟨fun w h => romFetch_of_some h, romFetch_of_none⟩, fun s hf hr => ?_⟩
  rw [exec_impl1_of_running hf, romFetch_of_none hr]
  rfl

/-- Settles O35: IMPL.1 settles the fetch's value, and latching it writes the current word alone. -/
theorem fetchOfAnImplementedEntryLatchesIt : Obligations.FetchOfAnImplementedEntryLatchesIt := by
  refine ⟨fun W => decodeField_impl_of_implemented, fun s w hf hr => ?_⟩
  rw [exec_impl1_of_running hf, romFetch_of_some hr]
  rfl

/-- Settles O36: in a cycle the register-transfer step aborts in S4, and no later sub-step and no clock selection runs. -/
theorem fetchOfAnUnimplementedEntryAborts : Obligations.FetchOfAnUnimplementedEntryAborts := by
  refine ⟨fun W => decodeField_impl_of_unimplemented, fun s => exec_impl0_of_running, fun s hs hr => ?_⟩
  rw [step_of_ready hs, rtStep_of_unimplemented (by exact hs.running) (by exact hr)]
  rfl

/-- Settles O37: the ROM is among the elements that neither a row, nor a cycle, nor another move can write. -/
theorem romIsNeverWritten : Obligations.RomIsNeverWritten :=
  ⟨fun _ _ h => ⟨step_rom h, fun _ => by rw [step_rom h]⟩, fun _ _ _ h => ⟨exec_rom h, fun _ => by rw [exec_rom h]⟩⟩

end Sys2Proof.Machine
end

section
/-! PROOFS. The clock model (40_clock_model.md): the due-predicate, the selection of the next mode, the rows of the clock
field, and the mode a cycle ends in. -/

namespace Sys2Proof.Machine

/-! ## The pulses -/

theorem due_iff (p : Pulse) (m : ClockMode) : due p m = true ↔ p = .p1 ∨ (p = .p2 ∧ m ≠ .cl3) ∨ p = .p3 := by
  cases p <;> simp [due]

/-- The pairs of a pulse and a mode that occur in a cycle, the four that 40_clock_model.md R96 names. -/
theorem mem_activePulses_iff (m : ClockMode) (p : Pulse) :
    p ∈ activePulses m ↔ (p, m) ∈ [(.p1, .cl1), (.p2, .cl2), (.p2, .cl3), ((.p3, .cl3) : Pulse × ClockMode)] := by
  cases m <;> simp [activePulses, pulseSlots, pulseCount]

/-- The register-transfer step never writes the mode. -/
theorem rtStep_mode {s t : State} (hf : s.fault = none) (h : rtStep s = .next t) : t.mode = s.mode := by
  rw [rtStep_next hf h]

/-- A pulse is a register-transfer step or nothing, so it never writes the mode. -/
theorem pulseStep_mode {m : ClockMode} {p : Pulse} {s t : State} (hf : s.fault = none) (h : pulseStep m p s = .next t) :
    t.mode = s.mode := by
  cases hd : due p m with
  | true =>
    rw [pulseStep, hd] at h
    exact rtStep_mode hf h
  | false =>
    rw [pulseStep_of_not_due hd] at h
    cases h
    rfl

/-! ## The selection of the next mode -/

/-- A clock field outside 1 to 6 has no next mode (40_clock_model.md R98). -/
theorem clockSelect_of_impossible {c : Nat} (h : c = 0 ∨ 6 < c) :
    clockSelect c = .raised ⟨.impossibleClockState, .microCycleEngine, c⟩ := by
  unfold clockSelect
  split
  case h_7 => rfl
  all_goals omega

theorem evalClock_of_value {c : Nat} {m : ClockMode} {s : State} (hf : s.fault = none) (h : clockSelect c = .value m) :
    evalClock c s = .next (setMode m s) := by
  rw [evalClock_of_running hf, h, settle]

theorem evalClock_of_impossible {c : Nat} {s : State} (hf : s.fault = none) (h : c = 0 ∨ 6 < c) :
    evalClock c s = .next (raise ⟨.impossibleClockState, .microCycleEngine, c⟩ s) := by
  rw [evalClock_of_running hf, clockSelect_of_impossible h, settle]

/-! ## The rows of the clock field -/

theorem clkRow_value {i : Instr} (h : i.field = .clkf) : clkRow i.value = some i := by
  cases i <;> simp_all [Instr.field, Instr.value, clkRow]

theorem decodeField_clkf {i : Instr} {W : PackedWord} (h : i.field = .clkf) (hb : W.getLsbD 31 = true)
    (hv : (W.extractLsb' 23 3).toNat = i.value) : decodeField .clkf W = .ok i := by
  have hread : Field.clkf.read W = i.value := hv
  exact decodeField_of_row hb (by rw [hread]; exact clkRow_value h)

theorem exec_clkf_of_value {i : Instr} {m : ClockMode} {s : State} (hi : i.field = .clkf)
    (h : clockSelect i.value = .value m) (hf : s.fault = none) : exec i s = .next (setMode m s) := by
  rw [exec_of_clkf hi, evalClock_of_value hf h]

theorem exec_clkf_of_impossible {i : Instr} {s : State} (hi : i.field = .clkf) (h : i.value = 0 ∨ 6 < i.value)
    (hf : s.fault = none) : exec i s = .next (raise ⟨.impossibleClockState, .microCycleEngine, i.value⟩ s) := by
  rw [exec_of_clkf hi, evalClock_of_impossible hf h]

/-! ## The mode a cycle ends in -/

/-- An enabled cycle is the register-transfer step and then one selection on the word it left current
(40_clock_model.md R98, 45_micro_cycle_engine.md R217). -/
theorem step_of_ready_evalClock {s : State} (hs : s.Ready) :
    step s = andThen (rtStep (setMoves s.moves.tail s)) fun u => evalClock u.cw.clkf u := by
  rw [step_of_ready hs, funext selectStep_eq]

/-- A cycle that completes ends in the mode its current word's clock field selects. -/
theorem clockSelect_of_completed_step {s t : State} (hs : s.Ready) (h : step s = .next t) (ht : t.fault = none) :
    clockSelect t.cw.clkf = .value t.mode := by
  rw [step_of_ready_evalClock hs] at h
  obtain ⟨u, _, ⟨hu, hsel⟩ | ⟨hu, rfl⟩⟩ := andThen_next h
  · rw [evalClock_of_running hu] at hsel
    obtain ⟨m, hm, rfl⟩ | ⟨c, _, rfl⟩ := settle_next hsel
    · exact hm
    · cases ht
  · exact absurd ht hu

/-- The state a register-transfer step with fetched word `w` and branch value `e` leaves (45_micro_cycle_engine.md R213,
S1 to S7). -/
def State.afterRt (w : MicroWord) (e : Byte) (s : State) : State :=
  latchDisplay (latchBranch e (advanceBranch (latchWord w (latchPointers s.nextAddress s))))

theorem rtStep_of_branch_value {s : State} {w : MicroWord} {e : Byte} (hf : s.fault = none)
    (hr : Memory.read s.rom s.nextAddress.toNat = some w) (hb : branchEval w.brf s.sw (dIsZero s.d) = .value e) :
    rtStep s = .next (s.afterRt w e) := by
  rw [rtStep_of_implemented hf hr, hb, settle, andThen_of_none (by exact hf)]
  rfl

/-- A cycle whose branch evaluation gives a value but whose fetched word has an impossible clock field aborts after the
whole register-transfer step (40_clock_model.md R99, R106). -/
theorem step_of_impossible_clock {s : State} {w : MicroWord} {e : Byte} (hs : s.Ready)
    (hr : Memory.read s.rom s.nextAddress.toNat = some w) (hb : branchEval w.brf s.sw (dIsZero s.d) = .value e)
    (hc : w.clkf = 0 ∨ 6 < w.clkf) :
    step s = .next (raise ⟨.impossibleClockState, .microCycleEngine, w.clkf⟩
      ((setMoves s.moves.tail s).afterRt w e)) := by
  have hrt : rtStep (setMoves s.moves.tail s) = .next ((setMoves s.moves.tail s).afterRt w e) :=
    rtStep_of_branch_value hs.running hr hb
  rw [step_of_ready_evalClock hs, hrt, andThen_of_none (by exact hs.running)]
  exact evalClock_of_impossible hs.running hc

/-! ## The obligations -/

/-- Settles O7: the table of the due-predicate, the pulses of each mode, and a pulse keeps the mode. -/
theorem duePulses : Obligations.DuePulses :=
  ⟨due_iff, fun m p => (mem_activePulses_iff m p).mp, fun _ _ _ _ => pulseStep_mode⟩

/-- Settles O9: the table of the selection, its abort for any other value, and the cycle's one selection. -/
theorem clockSelectionByValue : Obligations.ClockSelectionByValue := by
  refine ⟨fun c _ _ => ?_, fun c _ _ => ?_, fun c _ _ => ?_,
    fun c hc => ⟨clockSelect_of_impossible hc, fun s hf => evalClock_of_impossible hf hc⟩,
    fun c h => clockSelect_on h rfl, fun s hs => step_of_ready_evalClock hs⟩
  all_goals interval_cases c <;> rfl

/-- Settles O10: each row is the selection on its value, and a completed cycle ends in the mode that its word selects. -/
theorem clockRowsWriteTheMode : Obligations.ClockRowsWriteTheMode := by
  intro i c m h
  have hrow : i.field = .clkf ∧ i.value = c ∧ clockSelect c = .value m := by
    simp only [List.mem_cons, Prod.mk.injEq, List.not_mem_nil, or_false] at h
    rcases h with ⟨rfl, rfl, rfl⟩ | ⟨rfl, rfl, rfl⟩ | ⟨rfl, rfl, rfl⟩ | ⟨rfl, rfl, rfl⟩ | ⟨rfl, rfl, rfl⟩ |
      ⟨rfl, rfl, rfl⟩ <;> exact ⟨rfl, rfl, rfl⟩
  obtain ⟨hi, rfl, hsel⟩ := hrow
  refine ⟨fun W => decodeField_clkf hi, fun s hf => exec_clkf_of_value hi hsel hf, fun s t hs hstep ht hc => ?_⟩
  have hmode := clockSelect_of_completed_step hs hstep ht
  rw [hc, hsel] at hmode
  cases hmode
  rfl

/-- Settles O11: both values are outside 1 to 6, and the selection comes after the whole register-transfer step, which
keeps the mode. -/
theorem impossibleClockRowsAbort : Obligations.ImpossibleClockRowsAbort := by
  intro i c h
  have hrow : i.field = .clkf ∧ i.value = c ∧ (c = 0 ∨ 6 < c) := by
    simp only [List.mem_cons, Prod.mk.injEq, List.not_mem_nil, or_false] at h
    rcases h with ⟨rfl, rfl⟩ | ⟨rfl, rfl⟩
    · exact ⟨rfl, rfl, .inl rfl⟩
    · exact ⟨rfl, rfl, .inr (by decide)⟩
  obtain ⟨hi, rfl, himp⟩ := hrow
  refine ⟨fun W => decodeField_clkf hi, fun s hf => exec_clkf_of_impossible hi himp hf,
    fun s w e hs hr hw hb => ⟨_, step_of_impossible_clock hs hr hb (by rwa [hw]), ?_⟩⟩
  rw [hw]
  exact ⟨rfl, rfl, rfl, rfl, rfl, rfl, rfl, rfl⟩

end Sys2Proof.Machine
end

section
/-! PROOFS. The B-constant generator (41_b_constant.md): the selectors out of range, the one condition, the rows of BCS,
and the evaluation of BC_OUT. -/

namespace Sys2Proof

/-! ## The row that a field's value selects -/

/-- A row is the one its field selects on its value; IMPL.0 is selected by the flag's absence instead. -/
theorem rowOf_value {i : Instr} (h : i ≠ .impl0) : rowOf i.field i.value = some i := by
  cases i with
  | impl0 => exact absurd rfl h
  | prog p =>
    show (if p.toNat < 256 then some (Instr.prog (BitVec.ofNat 8 p.toNat)) else none) = some (.prog p)
    rw [if_pos p.isLt, BitVec.ofNat_toNat, BitVec.setWidth_eq]
  | _ => rfl

/-- An implemented word whose bits in a row's field spell the row's value selects that row. -/
theorem decodeField_of_value {i : Instr} {W : PackedWord} (hi : i ≠ .impl0) (hb : W.getLsbD 31 = true)
    (hv : i.field.read W = i.value) : decodeField i.field W = .ok i :=
  decodeField_of_row hb (by rw [hv, rowOf_value hi])

end Sys2Proof

namespace Sys2Proof.Machine

/-! ## The generator -/

/-- The nonzero parameter of 41_b_constant.md R123, R128. -/
theorem bc14Run_ne_zero : Config.bc14Run ≠ 0 := by
  have hidx := Config.bc14RunIndex.isLt
  rw [Config.bc14Run]
  bv_omega

theorem bConst_of_out_of_range {n : Nat} (h : 16 ≤ n) (k : Bool) :
    bConst n k = .raised ⟨.invalidSelector, .bConstantGenerator, n⟩ := by
  unfold bConst
  split
  case h_17 => rfl
  all_goals omega

/-- The single-clock flag is looked at under selector 0o14 alone (41_b_constant.md R127). -/
theorem bConst_flag_irrelevant {n : Nat} (h : n ≠ 0o14) (k k' : Bool) : bConst n k = bConst n k' := by
  unfold bConst
  split
  case h_13 => exact absurd rfl h
  all_goals rfl

/-- Under selector 0o14 the flag decides between zero and the nonzero parameter. -/
theorem bConst_fourteen_ne : bConst 0o14 true ≠ bConst 0o14 false :=
  fun h => bc14Run_ne_zero (Result.value.inj h).symm

/-- A packed word gives BCS four bits (41_b_constant.md R127, 30_encoding.md R64). -/
theorem unpack_bcs_lt {W : PackedWord} {w : MicroWord} (h : unpack W = some w) : w.bcs < 16 := by
  cases hb : W.getLsbD 31 with
  | false => rw [unpack_of_unimplemented hb] at h; cases h
  | true =>
    rw [unpack_of_implemented hb] at h
    cases h
    exact (W.extractLsb' 13 4).isLt

/-! ## An evaluation of BC_OUT -/

/-- A step that evaluates BC_OUT settles the generator's result on the current word's selector and the single-clock flag,
with the move off the schedule (10_state.md R30, 41_b_constant.md R129). -/
theorem step_of_evaluate_bcOut {s : State} {ms : List EnvMove} (hf : s.fault = none)
    (hm : s.moves = .evaluate .bcOut :: ms) :
    step s = settle (bConst s.cw.bcs s.sclk) setBcOut (setMoves ms s) := by
  have hmove : step s = evalBcOut (setMoves ms s) := step_of_move hf hm
  rw [hmove, evalBcOut_eq, evalConstant_of_running (by exact hf), setMoves_cw, setMoves_sclk]

/-! ## The rows of the constant field -/

theorem decodeField_bcs {i : Instr} {W : PackedWord} (hi : i.field = .bcs) (hb : W.getLsbD 31 = true)
    (hv : (W.extractLsb' 13 4).toNat = i.value) : decodeField .bcs W = .ok i := by
  have hne : i ≠ .impl0 := by
    rintro rfl
    cases hi
  rw [← hi]
  exact decodeField_of_value hne hb (by rw [hi]; exact hv)

theorem exec_bcs {i : Instr} {s : State} (hi : i.field = .bcs) (hf : s.fault = none) :
    exec i s = settle (bConst i.value s.sclk) setBcOut s := by
  rw [exec_of_bcs hi, evalConstant_of_running hf]

/-- A row of BCS whose selector has a constant under both values of the flag puts it on BC_OUT. -/
theorem constantRowGives_of_bConst {i : Instr} {c : Bool → Word} (hi : i.field = .bcs)
    (hc : ∀ k, bConst i.value k = .value (c k)) : Claims.ConstantRowGives i i.value fun s => c s.sclk := by
  refine ⟨fun W => decodeField_bcs hi, fun s hf => ?_, fun s ms hf hm hv => ?_⟩
  · rw [exec_bcs hi hf, hc]
    rfl
  · rw [step_of_evaluate_bcOut hf hm, hv, hc]
    rfl

/-- A row of BCS whose selector raises under both values of the flag takes that abort, and BC_OUT no value. -/
theorem constantRowAborts_of_bConst {i : Instr} {a : AbortKind} (hi : i.field = .bcs)
    (hc : ∀ k, bConst i.value k = .raised ⟨a, .bConstantGenerator, i.value⟩) :
    Claims.ConstantRowAborts i i.value a := by
  refine ⟨fun W => decodeField_bcs hi, fun s hf => ?_, fun s ms hf hm hv => ?_⟩
  · rw [exec_bcs hi hf, hc]
    rfl
  · rw [step_of_evaluate_bcOut hf hm, hv, hc]
    rfl

/-! ## The obligations -/

/-- Settles O12: each listed row is its selector's entry of the generator, the same under both values of the flag. -/
theorem fixedConstantRowsGiveTheirConstant : Obligations.FixedConstantRowsGiveTheirConstant := by
  intro i v c h
  have hrow : i.field = .bcs ∧ i.value = v ∧ ∀ k, bConst v k = .value c := by
    simp only [List.mem_cons, Prod.mk.injEq, List.not_mem_nil, or_false] at h
    rcases h with ⟨rfl, rfl, rfl⟩ | ⟨rfl, rfl, rfl⟩ | ⟨rfl, rfl, rfl⟩ | ⟨rfl, rfl, rfl⟩ | ⟨rfl, rfl, rfl⟩ |
      ⟨rfl, rfl, rfl⟩ | ⟨rfl, rfl, rfl⟩ | ⟨rfl, rfl, rfl⟩ <;> exact ⟨rfl, rfl, fun _ => rfl⟩
  obtain ⟨hi, rfl, hc⟩ := hrow
  exact constantRowGives_of_bConst hi hc

/-- Settles O13: selector 0o14 has a constant for each value of the flag, and the parameter is nonzero. -/
theorem constantFourteenFollowsTheSingleClockFlag : Obligations.ConstantFourteenFollowsTheSingleClockFlag :=
  ⟨constantRowGives_of_bConst (i := .bc14) (c := fun k => if k then 0x0000 else Config.bc14Run) rfl fun _ => rfl,
    bc14Run_ne_zero⟩

/-- Settles O14: each listed selector raises as unspecified. -/
theorem unspecifiedConstantRowsAbort : Obligations.UnspecifiedConstantRowsAbort := by
  intro i v h
  have hrow : i.field = .bcs ∧ i.value = v ∧
      ∀ k, bConst v k = .raised ⟨.unspecifiedSelector, .bConstantGenerator, v⟩ := by
    simp only [List.mem_cons, Prod.mk.injEq, List.not_mem_nil, or_false] at h
    rcases h with ⟨rfl, rfl⟩ | ⟨rfl, rfl⟩ | ⟨rfl, rfl⟩ | ⟨rfl, rfl⟩ <;> exact ⟨rfl, rfl, fun _ => rfl⟩
  obtain ⟨hi, rfl, hc⟩ := hrow
  exact constantRowAborts_of_bConst hi hc

/-- Settles O15: each listed selector raises as invalid. -/
theorem invalidConstantRowsAbort : Obligations.InvalidConstantRowsAbort := by
  intro i v h
  have hrow : i.field = .bcs ∧ i.value = v ∧
      ∀ k, bConst v k = .raised ⟨.invalidSelector, .bConstantGenerator, v⟩ := by
    simp only [List.mem_cons, Prod.mk.injEq, List.not_mem_nil, or_false] at h
    rcases h with ⟨rfl, rfl⟩ | ⟨rfl, rfl⟩ | ⟨rfl, rfl⟩ <;> exact ⟨rfl, rfl, fun _ => rfl⟩
  obtain ⟨hi, rfl, hc⟩ := hrow
  exact constantRowAborts_of_bConst hi hc

/-- Settles O16: the range of the generator, its one condition, and the wiring of BC_OUT by the two outcomes of the
generator. -/
theorem constantGeneratorRangeAndCondition : Obligations.ConstantGeneratorRangeAndCondition := by
  refine ⟨fun n k h => bConst_of_out_of_range h k, fun W w => unpack_bcs_lt,
    fun n h => bConst_flag_irrelevant h true false, bConst_fourteen_ne, fun s ms hf hm => ?_⟩
  rw [step_of_evaluate_bcOut hf hm]
  cases bConst s.cw.bcs s.sclk with
  | value c => rfl
  | raised e => rfl

end Sys2Proof.Machine
end

section
/-! PROOFS. The B-mux (42_b_mux.md): each half by its own selector bits, the selectors out of range, and the width of BMS
in a packed word. -/

namespace Sys2Proof

/-- The one record that a packed word can spell, and that the word then carries the flag (30_encoding.md R64). -/
theorem unpack_eq_some {W : PackedWord} {w : MicroWord} (h : unpack W = some w) :
    W.getLsbD 31 = true ∧ w =
      { prog := W.extractLsb' 0 8, brf := Field.brf.read W, bcs := Field.bcs.read W,
        bms := (W.extractLsb' 17 4).toNat, dms := Field.dms.read W, clkf := Field.clkf.read W } := by
  cases hb : W.getLsbD 31 with
  | false =>
    rw [unpack_of_unimplemented hb] at h
    cases h
  | true =>
    rw [unpack_of_implemented hb] at h
    exact ⟨rfl, (Option.some.inj h).symm⟩

/-- A packed word gives BMS four bits (42_b_mux.md R131, 30_encoding.md R64). -/
theorem unpack_bms_lt {W : PackedWord} {w : MicroWord} (h : unpack W = some w) : w.bms < 16 := by
  obtain ⟨-, rfl⟩ := unpack_eq_some h
  exact (W.extractLsb' 17 4).isLt

end Sys2Proof

namespace Sys2Proof.Machine

/-! ## The halves -/

/-- The low half by its selector as a number (42_b_mux.md R130). -/
theorem bMuxLow_eq (sel : BitVec 2) (b c : Word) :
    bMuxLow sel b c =
      if sel.toNat = 2 then highByte b else if sel.toNat = 3 then lowByte c else lowByte b := by
  match sel with
  | 0 => rfl
  | 1 => rfl
  | 2 => rfl
  | 3 => rfl

/-- The high half by its selector as a number (42_b_mux.md R130). -/
theorem bMuxHigh_eq (sel : BitVec 2) (b c : Word) :
    bMuxHigh sel b c =
      if sel.toNat = 0 then highByte b
      else if sel.toNat = 1 then signByte b
      else if sel.toNat = 2 then lowByte b else highByte c := by
  match sel with
  | 0 => rfl
  | 1 => rfl
  | 2 => rfl
  | 3 => rfl

/-! ## The whole selector -/

/-- In range the two halves are selected and concatenated (42_b_mux.md R140). -/
theorem bMux_of_lt {n : Nat} (h : n < 16) (b c : Word) :
    bMux n b c =
      .value (joinBytes (bMuxHigh (BitVec.ofNat 2 (n / 4)) b c) (bMuxLow (BitVec.ofNat 2 n) b c)) := by
  simp [bMux, bMuxSplit, h]

/-- Out of range the selector is refused before it is split (42_b_mux.md R131). -/
theorem bMux_of_out_of_range {n : Nat} (h : 16 ≤ n) (b c : Word) :
    bMux n b c = .raised ⟨.invalidSelector, .bMux, n⟩ := by
  simp [bMux, bMuxSplit, Nat.not_lt.mpr h]

/-- The low byte of the output is the one that selector bits 1..0 name. -/
theorem bMuxLow_ofNat (n : Nat) (b c : Word) :
    bMuxLow (BitVec.ofNat 2 n) b c =
      if n % 4 = 2 then highByte b else if n % 4 = 3 then lowByte c else lowByte b := by
  have hsel : (BitVec.ofNat 2 n).toNat = n % 4 := BitVec.toNat_ofNat n 2
  rw [bMuxLow_eq, hsel]

/-- The high byte of the output is the one that selector bits 3..2 name. -/
theorem bMuxHigh_ofNat_div {n : Nat} (h : n < 16) (b c : Word) :
    bMuxHigh (BitVec.ofNat 2 (n / 4)) b c =
      if n / 4 = 0 then highByte b
      else if n / 4 = 1 then signByte b
      else if n / 4 = 2 then lowByte b else highByte c := by
  have hsel : (BitVec.ofNat 2 (n / 4)).toNat = n / 4 :=
    (BitVec.toNat_ofNat _ _).trans (Nat.mod_eq_of_lt (by omega))
  rw [bMuxHigh_eq, hsel]

/-- An evaluation of the B-mux on a selector out of range takes the abort. -/
theorem evalBmuxHalves_of_out_of_range {s : State} (hf : s.fault = none) (h : 16 ≤ s.cw.bms) :
    evalBmuxHalves s = .next (raise ⟨.invalidSelector, .bMux, s.cw.bms⟩ s) := by
  rw [evalBmuxHalves_of_running hf, bMux_of_out_of_range h, settle]

/-! ## The obligation -/

/-- Settles O19: in range each byte of the joined output is its own half's, out of range the split is never reached, and
BMS has four bits in a packed word. -/
theorem bMuxSelectsEachHalfByItself : Obligations.BMuxSelectsEachHalfByItself := by
  refine ⟨fun n b c h => ⟨_, bMux_of_lt h b c, ?_, ?_⟩, fun n b c h => bMux_of_out_of_range h b c,
    fun s hf h => evalBmuxHalves_of_out_of_range hf h, fun W w => unpack_bms_lt⟩
  · exact (lowByte_joinBytes _ _).trans (bMuxLow_ofNat n b c)
  · exact (highByte_joinBytes _ _).trans (bMuxHigh_ofNat_div h b c)

end Sys2Proof.Machine
end

section
/-! PROOFS. The D-mux (43_d_mux.md): the selectors out of range, the bits of the shift, the rows of DMS, and the width of
DMS in a packed word. -/

namespace Sys2Proof

/-- A packed word gives DMS two bits (43_d_mux.md R155, 30_encoding.md R64). -/
theorem unpack_dms_lt {W : PackedWord} {w : MicroWord} (h : unpack W = some w) : w.dms < 4 := by
  obtain ⟨-, rfl⟩ := unpack_eq_some h
  exact (W.extractLsb' 21 2).isLt

end Sys2Proof

namespace Sys2Proof.Machine

/-! ## The selector -/

/-- Out of range the selector is refused (43_d_mux.md R155). -/
theorem dMux_of_out_of_range {n : Nat} (h : 4 ≤ n) (r u d : Word) (ci : Bool) :
    dMux n r u d ci = .raised ⟨.invalidSelector, .dMux, n⟩ := by
  unfold dMux
  split
  case h_5 => rfl
  all_goals omega

/-- An evaluation of the D-mux on a selector out of range takes the abort. -/
theorem evalDmux_of_out_of_range {n : Nat} {s : State} (hf : s.fault = none) (h : 4 ≤ n) :
    evalDmux n s = .next (raise ⟨.invalidSelector, .dMux, n⟩ s) := by
  rw [evalDmux_of_running hf, dMux_of_out_of_range h, settle]

/-- The fifteen bits below the carry-in are the upper fifteen of the operand (43_d_mux.md R154). -/
theorem shiftRightWithCarry_low (ci : Bool) (d : Word) :
    (shiftRightWithCarry ci d).extractLsb' 0 15 = d.extractLsb' 1 15 := by
  apply BitVec.eq_of_getLsbD_eq
  intro i h
  rw [BitVec.getLsbD_extractLsb', BitVec.getLsbD_extractLsb', Nat.zero_add, Nat.add_comm 1 i,
    shiftRightWithCarry_bit ci d i h]

/-! ## The rows of the D-mux field -/

theorem decodeField_dms {i : Instr} {W : PackedWord} (hi : i.field = .dms) (hb : W.getLsbD 31 = true)
    (hv : (W.extractLsb' 21 2).toNat = i.value) : decodeField .dms W = .ok i := by
  have hne : i ≠ .impl0 := by
    rintro rfl
    cases hi
  rw [← hi]
  exact decodeField_of_value hne hb (by rw [hi]; exact hv)

/-- A row of DMS whose selector has a value on the ports and D puts it on DMUX_OUT (43_d_mux.md R157). -/
theorem exec_dms_of_value {i : Instr} {v : Word} {s : State} (hi : i.field = .dms) (hf : s.fault = none)
    (h : dMux i.value s.busRd s.unibus s.d s.carryIn = .value v) : exec i s = .next (setDmuxOut v s) := by
  rw [exec_of_dms hi, evalDmux_of_running hf, h, settle]

/-! ## The obligations -/

/-- Settles O23: selectors 0 to 3 are the function's own entries, the shift bit by bit; a selector above is refused, and
DMS has two bits in a packed word. -/
theorem dMuxByItsSelector : Obligations.DMuxByItsSelector :=
  ⟨fun r u d ci => ⟨rfl, rfl, rfl,
      ⟨_, rfl, shiftRightWithCarry_top ci d, shiftRightWithCarry_low ci d⟩,
      fun _ h => dMux_of_out_of_range h r u d ci⟩,
    fun _ _ hf h => evalDmux_of_out_of_range hf h,
    fun _ _ => unpack_dms_lt⟩

/-- Settles O21: each listed row is its selector's entry of the D-mux, and running it settles that value. -/
theorem passThroughRowsOfTheDMux : Obligations.PassThroughRowsOfTheDMux := by
  intro i v x h
  have hrow : i.field = .dms ∧ i.value = v ∧
      ∀ s : State, dMux v s.busRd s.unibus s.d s.carryIn = .value (x s) := by
    simp only [List.mem_cons, Prod.mk.injEq, List.not_mem_nil, or_false] at h
    rcases h with ⟨rfl, rfl, rfl⟩ | ⟨rfl, rfl, rfl⟩ | ⟨rfl, rfl, rfl⟩ <;> exact ⟨rfl, rfl, fun _ => rfl⟩
  obtain ⟨hi, rfl, hx⟩ := hrow
  exact ⟨fun _ => decodeField_dms hi, fun s hf => exec_dms_of_value hi hf (hx s)⟩

/-- Settles O22: the row's value is the shifted operand, whose top bit is the carry-in and whose other bits come from one
place above. -/
theorem shiftRowInsertsTheCarry : Obligations.ShiftRowInsertsTheCarry :=
  ⟨fun _ => decodeField_dms (i := .dm3) rfl, fun s hf =>
    ⟨_, exec_dms_of_value (i := .dm3) rfl hf rfl, shiftRightWithCarry_top s.carryIn s.d,
      shiftRightWithCarry_bit s.carryIn s.d⟩⟩

end Sys2Proof.Machine
end

section
/-! PROOFS. The branch evaluator (44_branch_evaluator.md): the branch fields with a value and those without, the rows of
BRF, and the cycle that aborts in sub-step S6. -/

namespace Sys2Proof

/-- An implemented word whose bits in field `f` spell the value of a row of `f` selects that row. -/
theorem decodeField_of_field_value {f : Field} {i : Instr} {W : PackedWord} (hf : f ≠ .impl) (hi : i.field = f)
    (hb : W.getLsbD 31 = true) (hv : f.read W = i.value) : decodeField f W = .ok i := by
  subst hi
  have hne : i ≠ .impl0 := by
    rintro rfl
    exact hf rfl
  exact decodeField_of_value hne hb hv

end Sys2Proof

namespace Sys2Proof.Machine

/-! ## The banks and the evaluator -/

/-- Bank A has no source outside its three indices with a value (44_branch_evaluator.md R163). -/
theorem muxA_of_unspecified {n : Nat} (h : n ∉ [0o00, 0o06, 0o12]) (f : Nat) (sw dz : Bool) :
    muxA f n sw dz = .raised ⟨.unspecifiedSelector, .branchEvaluator, f⟩ := by
  unfold muxA
  split
  case h_4 => rfl
  all_goals simp at h

/-- Bank B has no source outside its one index with a value and its unused index (44_branch_evaluator.md R164). -/
theorem muxB_of_unspecified {n : Nat} (h : n ∉ [0o03, 0o04]) (f : Nat) :
    muxB f n = .raised ⟨.unspecifiedSelector, .branchEvaluator, f⟩ := by
  unfold muxB
  split
  case h_3 => rfl
  all_goals simp at h

/-- A branch field below 16 that bank A raises on is raised as bank A says (44_branch_evaluator.md R161). -/
theorem branchEval_of_muxA_raised {f : Nat} {sw dz : Bool} {c : AbortCause} (hf : f < 16)
    (h : muxA f f sw dz = .raised c) : branchEval f sw dz = .raised c := by
  have hrange : f < 0o40 := by omega
  simp only [branchEval, if_pos hrange, Nat.div_eq_of_lt hf, if_true, Nat.mod_eq_of_lt hf, h]

/-- A branch field of 16 to 31 that bank B raises on is raised as bank B says (44_branch_evaluator.md R162). -/
theorem branchEval_of_muxB_raised {f : Nat} {sw dz : Bool} {c : AbortCause} (hlo : 16 ≤ f) (hhi : f < 32)
    (h : muxB f (f - 16) = .raised c) : branchEval f sw dz = .raised c := by
  have hbank : f / 16 ≠ 0 := by omega
  have hindex : f % 16 = f - 16 := by omega
  simp only [branchEval, if_pos hhi, if_neg hbank, hindex, h]

/-- A branch field in range with neither a value nor the unused index is raised as unspecified, whatever the switch and
D hold. -/
theorem branchEval_of_unspecified {f : Nat} (hf : f < 32) (h : f ∉ [0o00, 0o06, 0o12, 0o23, 0o24]) (sw dz : Bool) :
    branchEval f sw dz = .raised ⟨.unspecifiedSelector, .branchEvaluator, f⟩ := by
  simp only [List.mem_cons, List.not_mem_nil, or_false, not_or] at h
  rcases Nat.lt_or_ge f 16 with hA | hB
  · exact branchEval_of_muxA_raised hA (muxA_of_unspecified (by simp; omega) f sw dz)
  · exact branchEval_of_muxB_raised hB hf (muxB_of_unspecified (by simp; omega) f)

/-- Branch field 0o06 is the switch (44_branch_evaluator.md R176). -/
theorem branchEval_six (sw dz : Bool) : branchEval 0o06 sw dz = .value (if sw then 0x01 else 0x00) := by
  cases sw <;> rfl

/-- Branch field 0o12 is the zero-detect (44_branch_evaluator.md R180). -/
theorem branchEval_twelve (sw dz : Bool) : branchEval 0o12 sw dz = .value (if dz then 0x01 else 0x00) := by
  cases dz <;> rfl

/-! ## The cycle that aborts in S6 -/

/-- A register-transfer step whose branch evaluation raises has latched the pointers, the word and the live latch, and
nothing later (45_micro_cycle_engine.md R213). -/
theorem rtStep_of_branch_raised {s : State} {w : MicroWord} {c : AbortCause} (hf : s.fault = none)
    (hr : Memory.read s.rom s.nextAddress.toNat = some w) (hb : branchEval w.brf s.sw (dIsZero s.d) = .raised c) :
    rtStep s = .next (raise c (advanceBranch (latchWord w (latchPointers s.nextAddress s)))) := by
  rw [rtStep_of_implemented hf hr, hb]
  rfl

/-- After a branch evaluation that raises, the cycle does not select a next mode. -/
theorem step_of_branch_raised {s : State} {w : MicroWord} {c : AbortCause} (hs : s.Ready)
    (hr : Memory.read s.rom s.nextAddress.toNat = some w) (hb : branchEval w.brf s.sw (dIsZero s.d) = .raised c) :
    step s = .next (raise c (advanceBranch (latchWord w
      (latchPointers s.nextAddress (setMoves s.moves.tail s))))) := by
  have hrt := rtStep_of_branch_raised (s := setMoves s.moves.tail s) hs.running hr hb
  rw [step_of_ready hs, hrt]
  rfl

/-! ## The rows of the branch field -/

theorem exec_brf {i : Instr} {s : State} (hi : i.field = .brf) (hf : s.fault = none) :
    exec i s = settle (branchEval i.value s.sw (dIsZero s.d)) latchBranch s := by
  rw [exec_of_brf hi, evalBranch_of_running hf]

/-- A row of BRF whose field has a branch value in every state puts it into the in-flux latch. -/
theorem branchRowGives_of_branchEval {i : Instr} {e : State → Byte} (hi : i.field = .brf)
    (he : ∀ s, branchEval i.value s.sw (dIsZero s.d) = .value (e s)) : Claims.BranchRowGives i i.value e := by
  refine ⟨fun W => decodeField_of_field_value (by decide) hi, fun s hf => ?_⟩
  rw [exec_brf hi hf, he]
  rfl

/-- A row of BRF whose field raises under every condition takes that abort, and so does a cycle that fetches the field. -/
theorem branchRowAborts_of_branchEval {i : Instr} {k : AbortKind} (hi : i.field = .brf)
    (hk : ∀ sw dz, branchEval i.value sw dz = .raised ⟨k, .branchEvaluator, i.value⟩) :
    Claims.BranchRowAborts i i.value k := by
  refine ⟨fun W => decodeField_of_field_value (by decide) hi, fun s hf => ?_, fun s w hs hr hw => ?_⟩
  · rw [exec_brf hi hf, hk]
    rfl
  · rw [step_of_branch_raised hs hr (by rw [hw]; exact hk _ _)]
    rfl

/-- Every row of a list of unspecified branch rows, each paired with its value, aborts. -/
theorem branchRowAborts_of_mem {rows : List (Instr × Nat)}
    (hrows : ∀ r ∈ rows, r.1.field = .brf ∧ r.1.value = r.2 ∧ r.2 < 32 ∧ r.2 ∉ [0o00, 0o06, 0o12, 0o23, 0o24])
    {i : Instr} {v : Nat} (h : (i, v) ∈ rows) : Claims.BranchRowAborts i v .unspecifiedSelector := by
  have hrow := hrows _ h
  dsimp only at hrow
  obtain ⟨hi, rfl, hlt, hv⟩ := hrow
  exact branchRowAborts_of_branchEval hi (branchEval_of_unspecified hlt hv)

/-! ## The obligations -/

/-- Settles O29: the rows from 0o01 to 0o11 are rows of BRF at in-range, unspecified fields of bank A. -/
theorem unspecifiedBranchRowsBelowTwelveAbort : Obligations.UnspecifiedBranchRowsBelowTwelveAbort :=
  fun _ _ => branchRowAborts_of_mem (by decide)

/-- Settles O30: the rows from 0o13 to 0o22 are rows of BRF at in-range, unspecified fields of both banks. -/
theorem unspecifiedBranchRowsBelowTwentyThreeAbort : Obligations.UnspecifiedBranchRowsBelowTwentyThreeAbort :=
  fun _ _ => branchRowAborts_of_mem (by decide)

/-- Settles O31: the rows from 0o25 to 0o37 are rows of BRF at in-range, unspecified fields of bank B. -/
theorem unspecifiedBranchRowsFromTwentyFiveAbort : Obligations.UnspecifiedBranchRowsFromTwentyFiveAbort :=
  fun _ _ => branchRowAborts_of_mem (by decide)

/-- Settles O25: bank A gives 0 at index 0, whatever the switch and D hold. -/
theorem branchRowZeroGivesZero : Obligations.BranchRowZeroGivesZero :=
  branchRowGives_of_branchEval (i := .but00) rfl fun _ => rfl

/-- Settles O26: bank A gives the switch at index 6, and the row writes the in-flux latch alone. -/
theorem branchRowSixGivesTheSwitch : Obligations.BranchRowSixGivesTheSwitch :=
  branchRowGives_of_branchEval (i := .but06) rfl fun s => branchEval_six s.sw (dIsZero s.d)

/-- Settles O27: bank A gives the zero-detect at index 0o12, which is set exactly when D is zero. -/
theorem branchRowTwelveGivesTheZeroDetect : Obligations.BranchRowTwelveGivesTheZeroDetect := by
  refine branchRowGives_of_branchEval (i := .but12) rfl fun s => ?_
  have hval := branchEval_twelve s.sw (dIsZero s.d)
  simp only [dIsZero_iff] at hval
  exact hval

/-- Settles O32: index 3 of bank B raises as invalid, whatever the switch and D hold. -/
theorem unusedBranchRowAborts : Obligations.UnusedBranchRowAborts :=
  branchRowAborts_of_branchEval (i := .but23) rfl fun _ _ => branchEval_of_muxB_raised (by decide) (by decide) rfl

end Sys2Proof.Machine
end

section
/-! PROOFS. The micro-cycle engine (45_micro_cycle_engine.md): the outcomes of a register-transfer step and of a cycle,
the address a cycle forms and the word it fetches there, the mode, and the first cycle after reset. -/

namespace Sys2Proof.Machine

/-! ## The row PROG -/

/-- Every value of bits 7:0 is an operand of PROG (30_encoding.md R68). -/
theorem decodeField_prog {W : PackedWord} (hb : W.getLsbD 31 = true) :
    decodeField .prog W = .ok (.prog (W.extractLsb' 0 8)) :=
  decodeField_of_value (i := .prog (W.extractLsb' 0 8)) (by simp) hb rfl

/-! ## The outcomes of a register-transfer step and of a cycle -/

/-- A register-transfer step ends in S4 at an unimplemented entry, in S6 at a branch field without a value, or after S7
(45_micro_cycle_engine.md R213). -/
theorem rtStep_cases {s t : State} (hf : s.fault = none) (h : rtStep s = .next t) :
    (Memory.read s.rom s.nextAddress.toNat = none ∧
      t = raise ⟨.unimplementedMicroaddress, .microRom, s.nextAddress.toNat⟩ (latchPointers s.nextAddress s)) ∨
    ∃ w, Memory.read s.rom s.nextAddress.toNat = some w ∧
      ((∃ c, branchEval w.brf s.sw (dIsZero s.d) = .raised c ∧
          t = raise c (advanceBranch (latchWord w (latchPointers s.nextAddress s)))) ∨
        ∃ e, branchEval w.brf s.sw (dIsZero s.d) = .value e ∧ t = s.afterRt w e) := by
  cases hr : Memory.read s.rom s.nextAddress.toNat with
  | none =>
    rw [rtStep_of_unimplemented hf hr] at h
    cases h
    exact .inl ⟨rfl, rfl⟩
  | some w =>
    refine .inr ⟨w, rfl, ?_⟩
    cases hb : branchEval w.brf s.sw (dIsZero s.d) with
    | raised c =>
      rw [rtStep_of_branch_raised hf hr hb] at h
      cases h
      exact .inl ⟨c, rfl, rfl⟩
    | value e =>
      rw [rtStep_of_branch_value hf hr hb] at h
      cases h
      exact .inr ⟨e, rfl, rfl⟩

/-- An enabled cycle ends in its register-transfer step's abort, or selects the next mode after it, or aborts in that
selection (45_micro_cycle_engine.md R210, R217). -/
theorem step_cases_of_ready {s t : State} (hs : s.Ready) (h : step s = .next t) :
    ∃ u, rtStep (setMoves s.moves.tail s) = .next u ∧
      ((u.fault ≠ none ∧ t = u) ∨
        (u.fault = none ∧ ∃ m, clockSelect u.cw.clkf = .value m ∧ t = setMode m u) ∨
        (u.fault = none ∧ ∃ c, clockSelect u.cw.clkf = .raised c ∧ t = raise c u)) := by
  rw [step_of_ready_evalClock hs] at h
  obtain ⟨u, hrt, ⟨hu, hsel⟩ | haborted⟩ := andThen_next h
  · rw [evalClock_of_running hu] at hsel
    obtain hm | hc := settle_next hsel
    · exact ⟨u, hrt, .inr (.inl ⟨hu, hm⟩)⟩
    · exact ⟨u, hrt, .inr (.inr ⟨hu, hc⟩)⟩
  · exact ⟨u, hrt, .inl haborted⟩

/-- A cycle whose register-transfer step completes goes on to settle the selection of the next mode. -/
theorem step_of_rtStep_completed {s u : State} (hs : s.Ready) (hrt : rtStep (setMoves s.moves.tail s) = .next u)
    (hu : u.fault = none) : step s = settle (clockSelect u.cw.clkf) setMode u := by
  rw [step_of_ready_evalClock hs, hrt, andThen_of_none hu, evalClock_of_running hu]

/-! ## The address a cycle forms and the word it fetches -/

/-- Whichever way a register-transfer step ends, S2 has put the formed address into `ptr`. -/
theorem rtStep_ptr {s t : State} (hf : s.fault = none) (h : rtStep s = .next t) : t.ptr = s.nextAddress := by
  obtain ⟨_, rfl⟩ | ⟨_, _, ⟨_, _, rfl⟩ | ⟨_, _, rfl⟩⟩ := rtStep_cases hf h <;> rfl

/-- A register-transfer step that completes has fetched the entry at the address it formed. -/
theorem read_of_rtStep_completed {s t : State} (hf : s.fault = none) (h : rtStep s = .next t) (ht : t.fault = none) :
    Memory.read s.rom s.nextAddress.toNat = some t.cw := by
  obtain ⟨_, rfl⟩ | ⟨w, hr, ⟨_, _, rfl⟩ | ⟨_, _, rfl⟩⟩ := rtStep_cases hf h
  · cases ht
  · cases ht
  · exact hr

/-- However a cycle ends, `ptr` is the address its register-transfer step formed. -/
theorem step_ptr_of_ready {s t : State} (hs : s.Ready) (h : step s = .next t) : t.ptr = s.nextAddress := by
  obtain ⟨u, hrt, hend⟩ := step_cases_of_ready hs h
  have hu : u.ptr = s.nextAddress := rtStep_ptr (s := setMoves s.moves.tail s) hs.running hrt
  obtain ⟨_, rfl⟩ | ⟨_, _, _, rfl⟩ | ⟨_, _, _, rfl⟩ := hend <;> exact hu

/-- A cycle that completes has fetched the entry at the address it formed. -/
theorem read_of_completed_step {s t : State} (hs : s.Ready) (h : step s = .next t) (ht : t.fault = none) :
    Memory.read s.rom s.nextAddress.toNat = some t.cw := by
  obtain ⟨u, hrt, hend⟩ := step_cases_of_ready hs h
  have hu : u.fault = none → Memory.read s.rom s.nextAddress.toNat = some u.cw :=
    read_of_rtStep_completed (s := setMoves s.moves.tail s) hs.running hrt
  obtain ⟨haborted, rfl⟩ | ⟨hrun, _, _, rfl⟩ | ⟨_, _, _, rfl⟩ := hend
  · exact absurd ht haborted
  · exact hu hrun
  · cases ht

/-- A cycle that forms the address of an unimplemented entry ends with that abort in S4. -/
theorem step_of_unimplemented {s : State} (hs : s.Ready) (hr : Memory.read s.rom s.nextAddress.toNat = none) :
    step s = .next (raise ⟨.unimplementedMicroaddress, .microRom, s.nextAddress.toNat⟩
      (latchPointers s.nextAddress (setMoves s.moves.tail s))) := by
  rw [step_of_ready hs, rtStep_of_unimplemented (by exact hs.running) (by exact hr)]
  rfl

/-! ## The mode -/

/-- A cycle that aborts keeps its mode: only a selection that gives a value writes it. -/
theorem step_mode_of_aborted {s t : State} (hs : s.Ready) (h : step s = .next t) (ht : t.fault ≠ none) :
    t.mode = s.mode := by
  obtain ⟨u, hrt, hend⟩ := step_cases_of_ready hs h
  have hu : u.mode = s.mode := rtStep_mode (s := setMoves s.moves.tail s) hs.running hrt
  obtain ⟨_, rfl⟩ | ⟨hrun, _, _, rfl⟩ | ⟨_, _, _, rfl⟩ := hend
  · exact hu
  · exact absurd hrun ht
  · exact hu

/-- No move of the environment but a cycle writes the mode (10_state.md R31). -/
theorem envMove_mode {e : EnvMove} {s t : State} (hf : s.fault = none) (hc : e ≠ .cycle) (h : envMove e s = .next t) :
    t.mode = s.mode := by
  rcases envMove_next hf hc h with ⟨_, _, ht⟩ | ⟨_, _, _, _, ht⟩ | ⟨_, ht⟩ | ⟨_, _, _, _, ht⟩ <;> rw [ht]

/-! ## The first cycle after reset -/

/-- Reset at an implemented entry 0 latches it (70_reset_and_hazards.md R271). -/
theorem resetWith_of_implemented {p : ResetParams} {rom : Memory} {w : MicroWord} (h : Memory.read rom 0 = some w) :
    State.resetWith p rom = latchWord w (State.created p rom) := by
  rw [State.resetWith, romFetch_of_some (a := 0) h]

theorem ready_of_created (p : ResetParams) (rom : Memory) (w : MicroWord) :
    (latchWord w (State.created p rom)).Ready :=
  ⟨rfl, ClockMode.noConfusion, rfl⟩

/-- The branch fields of BranchOk are fields with a value (20_memory.md R53). -/
theorem branchEval_of_branchOk {w : MicroWord} (h : branchOk w = true) (sw dz : Bool) :
    ∃ e, branchEval w.brf sw dz = .value e := by
  simp only [branchOk, List.contains_iff_mem, List.mem_cons, List.not_mem_nil, or_false] at h
  rcases h with h | h | h | h <;> rw [h]
  · exact ⟨0, rfl⟩
  · exact ⟨_, branchEval_six sw dz⟩
  · exact ⟨_, branchEval_twelve sw dz⟩
  · exact ⟨0, rfl⟩

/-- Clock fields 1 and 2 select CL1 (40_clock_model.md R100, R101). -/
theorem clockSelect_cl1 {c : Nat} (h : c = 1 ∨ c = 2) : clockSelect c = .value .cl1 := by
  rcases h with rfl | rfl <;> rfl

/-- A cycle that fetches a word with a branch value and a next mode completes in that mode. -/
theorem step_of_completed {s : State} {w : MicroWord} {e : Byte} {m : ClockMode} (hs : s.Ready)
    (hr : Memory.read s.rom s.nextAddress.toNat = some w) (hb : branchEval w.brf s.sw (dIsZero s.d) = .value e)
    (hc : clockSelect w.clkf = .value m) :
    step s = .next (setMode m ((setMoves s.moves.tail s).afterRt w e)) := by
  have hrt : rtStep (setMoves s.moves.tail s) = .next ((setMoves s.moves.tail s).afterRt w e) :=
    rtStep_of_branch_value hs.running hr hb
  have hsel : clockSelect ((setMoves s.moves.tail s).afterRt w e).cw.clkf = .value m := hc
  rw [step_of_rtStep_completed hs hrt hs.running, hsel, settle]

/-! ## The obligations -/

/-- Settles O39: PROG latches the OR; however the cycle ends `ptr` keeps it, S4 aborts at an unimplemented entry, and a
cycle that completes has fetched the entry there. -/
theorem programFieldFormsTheNextAddress : Obligations.ProgramFieldFormsTheNextAddress := by
  refine ⟨fun W => decodeField_prog, fun s p hf => exec_prog_of_running hf p, fun s t hs h => ?_⟩
  have hptr := step_ptr_of_ready hs h
  refine ⟨hptr, fun hr => ?_, fun ht => ?_⟩
  · rw [hptr] at hr ⊢
    rw [step_of_unimplemented hs hr] at h
    cases h
    rfl
  · rw [hptr, step_rom h]
    exact read_of_completed_step hs h ht

/-- Settles O42: a completed cycle has settled the selection's value, an aborted one keeps the mode as the
register-transfer step does, and so does every other move. -/
theorem cycleEndsInTheSelectedMode : Obligations.CycleEndsInTheSelectedMode := by
  refine ⟨fun s t hs h => ⟨clockSelect_of_completed_step hs h, step_mode_of_aborted hs h⟩,
    fun s u c hs hrt hu hc => ?_, fun s t => rtStep_mode, fun s t hmove h => ?_⟩
  · rw [step_of_rtStep_completed hs hrt hu, hc]
    rfl
  · obtain ⟨hf, henv, _⟩ := step_next h
    exact envMove_mode (s := setMoves s.moves.tail s) hf hmove henv

/-- Settles O48: reset latches entry 0 with the live latch 0, so the cycle forms 0o26 OR 0, and the word fetched there
has a branch value and selects CL1. -/
theorem firstCycleOfTheDocumentsScenario : Obligations.FirstCycleOfTheDocumentsScenario := by
  intro p rom w0 w h0 hprog hw hbranch hclock
  have haddr : (latchWord w0 (State.created p rom)).nextAddress = 0o26 := by
    show w0.prog ||| 0 = 0o26
    rw [hprog]
    rfl
  obtain ⟨e, he⟩ := branchEval_of_branchOk hbranch p.sw (dIsZero p.d)
  have hstep := step_of_completed (ready_of_created p rom w0) (by rw [haddr]; exact hw) he (clockSelect_cl1 hclock)
  rw [resetWith_of_implemented h0]
  exact ⟨_, hstep, rfl, haddr, haddr, rfl, rfl⟩

/-- Settles O41: a pulse that is not due runs no register-transfer step, and P2 is the first pulse of CL3 and not due
there. -/
theorem pulseNotDueChangesNothing : Obligations.PulseNotDueChangesNothing :=
  ⟨fun _ _ s hd => pulseStep_of_not_due hd s, rfl, rfl⟩

end Sys2Proof.Machine
end

section
/-! PROOFS. The exceptions (60_exceptions.md): an abort is terminal (R245). -/

namespace Sys2Proof.Machine

/-! ## A run that stops at its first step -/

/-- A run of one step or more ends in the fault of its first step. -/
theorem run_of_step_fault {M : Host.Core} {s : M.State} {r : M.Fault} (h : M.step s = .fault r) (n : Nat) :
    Host.Core.run M (n + 1) s = .fault r := by
  rw [Host.Core.run, h]

/-! ## The obligation -/

/-- Settles O49: the step and every row are gated on the abort record, and a run ends in the fault of its first step. -/
theorem nothingRunsAfterAnAbort : Obligations.NothingRunsAfterAnAbort :=
  fun _ _ h => ⟨step_of_aborted h, exec_of_aborted h, run_of_step_fault (M := core) (step_of_aborted h)⟩

end Sys2Proof.Machine
end

section
/-! PROOFS. The packed form (30_encoding.md): packing and unpacking are inverse up to the bits the form does not hold, and
a word selects one row of every field, by its bits. -/

namespace Sys2Proof

/-! ## The bits of a packed word as numbers -/

/-- Bit 31 as a number: the word is 2 to the 31 or more. -/
theorem getLsbD_31_iff (W : PackedWord) : W.getLsbD 31 = true ↔ 2147483648 ≤ W.toNat := by
  have hlt := W.isLt
  rw [BitVec.getLsbD, Nat.testBit_eq_decide_div_mod_eq, decide_eq_true_eq]
  omega

/-- The fields of an implemented word's record, cut out of the word as a number (30_encoding.md R64). -/
theorem fields_of_unpack {W : PackedWord} {w : MicroWord} (h : unpack W = some w) :
    w.prog.toNat = W.toNat % 256 ∧ w.brf = W.toNat / 256 % 32 ∧ w.bcs = W.toNat / 8192 % 16 ∧
    w.bms = W.toNat / 131072 % 16 ∧ w.dms = W.toNat / 2097152 % 4 ∧ w.clkf = W.toNat / 8388608 % 8 ∧ w.rest = {} := by
  obtain ⟨-, rfl⟩ := unpack_eq_some h
  simp [Field.read, Field.low, Field.width, BitVec.extractLsb'_toNat, Nat.shiftRight_eq_div_pow]

/-- The record of any packed word has its selectors in range (30_encoding.md R61). -/
theorem wf_of_unpack {W : PackedWord} {w : MicroWord} (h : unpack W = some w) : w.wf = true := by
  obtain ⟨-, hbrf, hbcs, hbms, hdms, hclkf, -⟩ := fields_of_unpack h
  simp only [MicroWord.wf, Bool.and_eq_true, decide_eq_true_eq]
  omega

theorem pack_implemented {w : MicroWord} (h : w.wf = true) : (pack w).getLsbD 31 = true := by
  rw [getLsbD_31_iff, pack_toNat h]
  omega

/-- A packed record unpacks to itself, but for the uninterpreted fields: each field is cut back out of the sum that the
packed word is. -/
theorem unpack_pack {w : MicroWord} (h : w.wf = true) : unpack (pack w) = some { w with rest := {} } := by
  obtain ⟨v, hv⟩ : ∃ v, unpack (pack w) = some v := ⟨_, unpack_of_implemented (pack_implemented h)⟩
  have hprog := w.prog.isLt
  have hfields := fields_of_unpack hv
  rw [pack_toNat h] at hfields
  obtain ⟨vprog, vbrf, vbcs, vbms, vdms, vclkf, vrest⟩ := hfields
  simp only [MicroWord.wf, Bool.and_eq_true, decide_eq_true_eq] at h
  have hpeq : v.prog = w.prog := BitVec.eq_of_toNat_eq (by omega)
  rw [hv, Option.some.injEq, MicroWord.mk.injEq]
  exact ⟨hpeq, by omega, by omega, by omega, by omega, by omega, vrest⟩

/-- The mask of bits 31 and 25:0 keeps an implemented word's flag and its fields, and clears bits 30:26. -/
theorem toNat_and_mask {W : PackedWord} (h : W.getLsbD 31 = true) :
    (W &&& 0x83FFFFFF).toNat = 2147483648 + W.toNat % 67108864 := by
  have hmask : (0x83FFFFFF : PackedWord).toNat = 2 ^ 31 ||| (2 ^ 26 - 1) := by decide
  have hlow : W.toNat % 2 ^ 26 < 2 ^ 31 := by omega
  rw [BitVec.toNat_and, hmask, Nat.and_or_distrib_left, Nat.and_two_pow, Nat.and_two_pow_sub_one_eq_mod]
  have hbit : W.toNat.testBit 31 = true := h
  have hsum := Nat.shiftLeft_add_eq_or_of_lt hlow 1
  rw [Nat.shiftLeft_eq, Nat.one_mul] at hsum
  rw [hbit, Bool.toNat_true, Nat.one_mul]
  exact hsum.symm

/-- Packing what a word unpacks to gives the word without its ignored bits. -/
theorem pack_of_unpack {W : PackedWord} {w : MicroWord} (h : unpack W = some w) : pack w = W &&& 0x83FFFFFF := by
  obtain ⟨hprog, hbrf, hbcs, hbms, hdms, hclkf, -⟩ := fields_of_unpack h
  apply BitVec.eq_of_toNat_eq
  rw [pack_toNat (wf_of_unpack h), toNat_and_mask (unpack_eq_some h).1]
  omega

/-- A word spells no entry exactly when its flag is clear (30_encoding.md R64). -/
theorem unpack_eq_none_iff (W : PackedWord) : unpack W = none ↔ W.getLsbD 31 = false := by
  cases hb : W.getLsbD 31 with
  | false => simp [unpack_of_unimplemented hb]
  | true => simp [unpack_of_implemented hb]

/-! ## The row of every field -/

/-- Every field of an implemented word has the one row whose value the field's bits spell (30_encoding.md R75). -/
theorem exists_row_of_field (f : Field) {W : PackedWord} (hb : W.getLsbD 31 = true) :
    ∃ i, decodeField f W = .ok i ∧ i.field = f ∧ i.value = f.read W := by
  have hrow : ∃ i, rowOf f (f.read W) = some i ∧ i.field = f ∧ i.value = f.read W := by
    have hlt : f.read W < 2 ^ f.width := (W.extractLsb' f.low f.width).isLt
    cases f with
    | impl => exact ⟨.impl1, by rw [Machine.fieldRead_impl, hb]; rfl, rfl, by rw [Machine.fieldRead_impl, hb]; rfl⟩
    | prog => exact ⟨_, row_of_decodeField hb (Machine.decodeField_prog hb), rfl, rfl⟩
    | bcs => exact bcRow_total hlt
    | bml => exact bmlRow_total hlt
    | bmh => exact bmhRow_total hlt
    | dms => exact dmRow_total hlt
    | brf => exact butRow_total hlt
    | clkf => exact clkRow_total hlt
  obtain ⟨i, hi, hfield, hvalue⟩ := hrow
  exact ⟨i, decodeField_of_row hb hi, hfield, hvalue⟩

/-- A row that a field of an implemented word decodes to is a row of that field, with the field's value. -/
theorem field_value_of_decodeField {f : Field} {W : PackedWord} {i : Instr} (hb : W.getLsbD 31 = true)
    (h : decodeField f W = .ok i) : i.field = f ∧ i.value = f.read W := by
  obtain ⟨j, hj, hfield, hvalue⟩ := exists_row_of_field f hb
  rw [h] at hj
  cases hj
  exact ⟨hfield, hvalue⟩

/-- Only the flag decodes in an unimplemented word. -/
theorem implemented_of_decodeField {f : Field} {W : PackedWord} {i : Instr} (hf : f ≠ .impl)
    (h : decodeField f W = .ok i) : W.getLsbD 31 = true := by
  cases hb : W.getLsbD 31 with
  | true => rfl
  | false =>
    rw [decodeField_of_unimplemented hb hf] at h
    cases h

theorem mem_rowsOf_of_decodeField {f : Field} {W : PackedWord} {i : Instr} (h : decodeField f W = .ok i) :
    i ∈ rowsOf W := by
  refine List.mem_filterMap.mpr ⟨f, ?_, by rw [h]; rfl⟩
  cases f <;> decide

/-- The encoder's word for a row selects the row in its own field. -/
theorem decodeField_encode (i : Instr) : decodeField i.field (encode i) = .ok i := by
  cases i with
  | prog p => exact Laws.RowRoundTrip.prog p
  | _ => rfl

/-! ## The obligations -/

/-- Settles O2: each field of a well-formed record is cut back out of the packed sum; and cutting a field out of a word
leaves it in its range. -/
theorem unpackOfPackGivesTheRecord : Obligations.UnpackOfPackGivesTheRecord :=
  ⟨fun _ => unpack_pack, fun _ _ => wf_of_unpack⟩

/-- Settles O3: both words are the same sum of the flag and the fields, the ignored bits being left out of it. -/
theorem packOfUnpackGivesTheWord : Obligations.PackOfUnpackGivesTheWord :=
  ⟨fun _ _ => pack_of_unpack, unpack_eq_none_iff⟩

/-- Settles O4: the row is selected in its own field, and every field is among those that `rowsOf` reads. -/
theorem encodedRowsDecodeToThemselves : Obligations.EncodedRowsDecodeToThemselves :=
  fun i => ⟨decodeField_encode i, mem_rowsOf_of_decodeField (decodeField_encode i)⟩

/-- Settles O5: every value of a field's width has its row; without the flag nothing but IMPL.0 decodes. -/
theorem everyFieldSelectsTheRowOfItsBits : Obligations.EveryFieldSelectsTheRowOfItsBits :=
  ⟨fun _ hb => ⟨Machine.decodeField_impl_of_implemented hb, Machine.decodeField_prog hb,
      exists_row_of_field .brf hb, exists_row_of_field .bcs hb, exists_row_of_field .bml hb,
      exists_row_of_field .bmh hb, exists_row_of_field .dms hb, exists_row_of_field .clkf hb⟩,
    fun _ hb => ⟨Machine.decodeField_impl_of_unimplemented hb, fun _ => decodeField_of_unimplemented hb⟩⟩

/-- Settles O1: each word is written out, so its fields are read off its bits. -/
theorem specWordsDecodeAsWritten : Obligations.SpecWordsDecodeAsWritten :=
  ⟨rfl, rfl, rfl, rfl, rfl, rfl, rfl, rfl, rfl, rfl, rfl⟩

end Sys2Proof
end

section
/-! PROOFS. The data path (41_b_constant.md to 43_d_mux.md): the rows of the halves of the B-mux, and the evaluation of
each output as one function and as the rows of the current word. -/

namespace Sys2Proof.Machine

/-! ## The rows of the halves -/

theorem exec_bml {i : Instr} {s : State} (hi : i.field = .bml) (hf : s.fault = none) :
    exec i s = .next (setBmuxLow (bMuxLow (BitVec.ofNat 2 i.value) s.b s.bcOut) s) := by
  rw [exec_of_bml hi, evalBmuxLow_of_running hf]

theorem exec_bmh {i : Instr} {s : State} (hi : i.field = .bmh) (hf : s.fault = none) :
    exec i s = .next (setBmuxHigh (bMuxHigh (BitVec.ofNat 2 i.value) s.b s.bcOut) s) := by
  rw [exec_of_bmh hi, evalBmuxHigh_of_running hf]

/-- A low-byte row puts its byte in the low half of BMUX_OUT and leaves the high half (42_b_mux.md section 2). -/
theorem exec_bml_halves {i : Instr} {s : State} {x : Byte} (hi : i.field = .bml) (hf : s.fault = none)
    (hx : bMuxLow (BitVec.ofNat 2 i.value) s.b s.bcOut = x) :
    ∃ y : Word, exec i s = .next { s with bmuxOut := y } ∧
      y.extractLsb' 0 8 = x ∧ y.extractLsb' 8 8 = s.bmuxOut.extractLsb' 8 8 :=
  ⟨_, exec_bml hi hf, (lowByte_joinBytes _ _).trans hx, highByte_joinBytes _ _⟩

/-- A high-byte row puts its byte in the high half of BMUX_OUT and leaves the low half (42_b_mux.md section 3). -/
theorem exec_bmh_halves {i : Instr} {s : State} {x : Byte} (hi : i.field = .bmh) (hf : s.fault = none)
    (hx : bMuxHigh (BitVec.ofNat 2 i.value) s.b s.bcOut = x) :
    ∃ y : Word, exec i s = .next { s with bmuxOut := y } ∧
      y.extractLsb' 8 8 = x ∧ y.extractLsb' 0 8 = s.bmuxOut.extractLsb' 0 8 :=
  ⟨_, exec_bmh hi hf, (highByte_joinBytes _ _).trans hx, lowByte_joinBytes _ _⟩

/-! ## An evaluation of BMUX_OUT -/

/-- The generator comes first: where it raises, nothing else of the evaluation happens (42_b_mux.md R142). -/
theorem evalBmuxOut_of_constant_raised {s : State} {e : AbortCause} (hf : s.fault = none)
    (hc : bConst s.cw.bcs s.sclk = .raised e) : evalBmuxOut s = .next (raise e s) := by
  rw [evalBmuxOut_of_running hf, hc]
  rfl

/-- With a constant on BC_OUT the evaluation goes on with the B-mux on B and that constant (42_b_mux.md R142). -/
theorem evalBmuxOut_of_constant {s : State} {c : Word} (hf : s.fault = none)
    (hc : bConst s.cw.bcs s.sclk = .value c) :
    evalBmuxOut s = settle (bMux s.cw.bms s.b c) (fun v s => { s with bmuxOut := v }) (setBcOut c s) := by
  have hrun : (setBcOut c s).fault = none := hf
  rw [evalBmuxOut_of_running hf, hc, settle, andThen_of_none hrun, evalBmuxHalves_of_running hrun]
  rfl

theorem step_of_evaluate_bmuxOut {s : State} {ms : List EnvMove} (hf : s.fault = none)
    (hm : s.moves = .evaluate .bmuxOut :: ms) : step s = evalBmuxOut (setMoves ms s) :=
  step_of_move hf hm

/-! ## An evaluation of DMUX_OUT -/

/-- A step that evaluates DMUX_OUT settles the D-mux's result on the values that the evaluation carries and D
(43_d_mux.md R157, R158). -/
theorem step_of_evaluate_dmuxOut {s : State} {ms : List EnvMove} {r u : Word} {ci : Bool} (hf : s.fault = none)
    (hm : s.moves = .evaluate (.dmuxOut r u ci) :: ms) :
    step s = settle (dMux s.cw.dms r u s.d ci) setDmuxOut (driveInputs r u ci (setMoves ms s)) := by
  have hmove : step s = evalDmuxOut (driveInputs r u ci (setMoves ms s)) := step_of_move hf hm
  rw [hmove, evalDmuxOut_eq, evalDmux_of_running (by exact hf)]
  rfl

/-! ## The rows of the current word -/

/-- The selectors of the record that a word spells are the values of the rows the word selects. -/
theorem values_of_decoded_rows {W : PackedWord} {w : MicroWord} (h : unpack W = some w) :
    (∀ i, decodeField .bcs W = .ok i → i.field = .bcs ∧ i.value = w.bcs) ∧
    (∀ i, decodeField .bml W = .ok i → i.field = .bml ∧ i.value = w.bms % 4) ∧
    (∀ i, decodeField .bmh W = .ok i → i.field = .bmh ∧ i.value = w.bms / 4) ∧
    (∀ i, decodeField .dms W = .ok i → i.field = .dms ∧ i.value = w.dms) ∧
    (∀ i, decodeField .brf W = .ok i → i.field = .brf ∧ i.value = w.brf) ∧
    ∀ i, decodeField .clkf W = .ok i → i.field = .clkf ∧ i.value = w.clkf := by
  obtain ⟨hb, rfl⟩ := unpack_eq_some h
  obtain ⟨hlo, hhi⟩ := bms_split W
  refine ⟨fun i => field_value_of_decodeField hb, fun i => ?_, fun i => ?_, fun i => field_value_of_decodeField hb,
    fun i => field_value_of_decodeField hb, fun i => field_value_of_decodeField hb⟩
  · rw [hlo]
    exact field_value_of_decodeField hb
  · rw [hhi]
    exact field_value_of_decodeField hb

/-- The two halves' rows in turn are the B-mux on a selector in range (42_b_mux.md R140). -/
theorem exec_halves {il ih : Instr} {n : Nat} {s : State} (hl : il.field = .bml ∧ il.value = n % 4)
    (hh : ih.field = .bmh ∧ ih.value = n / 4) (hn : n < 16) (hf : s.fault = none) :
    andThen (exec il s) (exec ih) = settle (bMux n s.b s.bcOut) (fun v s => { s with bmuxOut := v }) s := by
  obtain ⟨hlf, hlv⟩ := hl
  obtain ⟨hhf, hhv⟩ := hh
  have hsel : BitVec.ofNat 2 (n % 4) = BitVec.ofNat 2 n := BitVec.eq_of_toNat_eq (by simp)
  rw [exec_bml hlf hf, andThen_of_none (by exact hf), exec_bmh hhf (by exact hf), hlv, hhv, hsel, bMux_of_lt hn]
  simp [settle, setBmuxHigh, setBmuxLow]

/-! ## The obligations -/

/-- Settles O17: each listed row is its half of the B-mux on its value, whose byte is one of B. -/
theorem halfRowsOfBSelectTheirByte : Obligations.HalfRowsOfBSelectTheirByte := by
  refine ⟨fun i v x h => ?_, fun i v x h => ?_⟩
  · have hrow : i.field = .bml ∧ i.value = v ∧ ∀ b c, bMuxLow (BitVec.ofNat 2 v) b c = x b := by
      simp only [List.mem_cons, Prod.mk.injEq, List.not_mem_nil, or_false] at h
      rcases h with ⟨rfl, rfl, rfl⟩ | ⟨rfl, rfl, rfl⟩ | ⟨rfl, rfl, rfl⟩ <;> exact ⟨rfl, rfl, fun _ _ => rfl⟩
    obtain ⟨hi, rfl, hx⟩ := hrow
    exact ⟨fun _ => decodeField_of_field_value (by decide) hi, fun s hf => exec_bml_halves hi hf (hx _ _)⟩
  · have hrow : i.field = .bmh ∧ i.value = v ∧ ∀ b c, bMuxHigh (BitVec.ofNat 2 v) b c = x b := by
      simp only [List.mem_cons, Prod.mk.injEq, List.not_mem_nil, or_false] at h
      rcases h with ⟨rfl, rfl, rfl⟩ | ⟨rfl, rfl, rfl⟩ | ⟨rfl, rfl, rfl⟩ <;> exact ⟨rfl, rfl, fun _ _ => rfl⟩
    obtain ⟨hi, rfl, hx⟩ := hrow
    exact ⟨fun _ => decodeField_of_field_value (by decide) hi, fun s hf => exec_bmh_halves hi hf (hx _ _)⟩

/-- Settles O18: value 3 of either half is the same half of what stands on BC_OUT. -/
theorem halfRowsOfTheConstantSelectItsByte : Obligations.HalfRowsOfTheConstantSelectItsByte :=
  ⟨fun _ => decodeField_of_field_value (i := .bml3) (by decide) rfl,
    fun _ => decodeField_of_field_value (i := .bmh3) (by decide) rfl,
    fun _ hf => exec_bml_halves (i := .bml3) rfl hf rfl, fun _ hf => exec_bmh_halves (i := .bmh3) rfl hf rfl⟩

/-- Settles O20: by the outcome of the generator and then that of the mux on its constant. -/
theorem bmuxOutIsTheMuxOfTheGeneratedConstant : Obligations.BmuxOutIsTheMuxOfTheGeneratedConstant := by
  intro s ms hf hm
  rw [step_of_evaluate_bmuxOut hf hm]
  cases hc : bConst s.cw.bcs s.sclk with
  | raised e => exact evalBmuxOut_of_constant_raised (s := setMoves ms s) hf hc
  | value c =>
    rw [evalBmuxOut_of_constant (s := setMoves ms s) hf hc, setMoves_cw, setMoves_b]
    dsimp only
    cases bMux s.cw.bms s.b c with
    | raised e => rfl
    | value v => rfl

/-- Settles O24: by the outcome of the mux on the values the evaluation carries. -/
theorem dmuxOutIsTheMuxOfThePorts : Obligations.DmuxOutIsTheMuxOfThePorts := by
  intro s r u ci ms hf hm
  rw [step_of_evaluate_dmuxOut hf hm]
  cases dMux s.cw.dms r u s.d ci with
  | raised e => rfl
  | value v => rfl

/-- Settles O44: the rows a word selects have the values of its record's selectors, so each is the evaluation of its
component on the current word's selector. -/
theorem evaluationRunsTheDecodedRows : Obligations.EvaluationRunsTheDecodedRows := by
  intro s ms W hf hW
  obtain ⟨hbcs, hbml, hbmh, hdms, -, -⟩ := values_of_decoded_rows hW
  refine ⟨fun i hi hm => ?_, fun i il ih hi hil hih hm => ?_, fun i r u c hi hm => ?_⟩
  · obtain ⟨hfield, hvalue⟩ := hbcs i hi
    rw [step_of_evaluate_bcOut hf hm, ← hvalue]
    exact (exec_bcs (s := setMoves ms s) hfield hf).symm
  · obtain ⟨hfield, hvalue⟩ := hbcs i hi
    have hrow : exec i (setMoves ms s) = settle (bConst s.cw.bcs s.sclk) setBcOut (setMoves ms s) := by
      rw [exec_bcs hfield (by exact hf), hvalue, setMoves_sclk]
    rw [step_of_evaluate_bmuxOut hf hm]
    refine Eq.trans ?_ (congrArg (andThen · _) hrow.symm)
    cases hc : bConst s.cw.bcs s.sclk with
    | raised e => exact evalBmuxOut_of_constant_raised (s := setMoves ms s) hf hc
    | value v =>
      have hrun : (setBcOut v (setMoves ms s)).fault = none := hf
      rw [evalBmuxOut_of_constant (s := setMoves ms s) hf hc, settle, andThen_of_none hrun,
        exec_halves (hbml il hil) (hbmh ih hih) (unpack_bms_lt hW) hrun]
      rfl
  · obtain ⟨hfield, hvalue⟩ := hdms i hi
    rw [step_of_evaluate_dmuxOut hf hm, ← hvalue]
    refine Eq.trans ?_ (exec_of_dms hfield _).symm
    rw [evalDmux_of_running (by exact hf)]
    rfl

end Sys2Proof.Machine
end

section
/-! PROOFS. The components' tables: the pulses of each mode (40_clock_model.md), the branch evaluator on every field
(44_branch_evaluator.md), and the list form of the micro-ROM (20_memory.md). -/

namespace Sys2Proof.Machine

/-! ## The branch evaluator on every field -/

/-- A branch field of more than five bits is refused before the banks are looked at (44_branch_evaluator.md R167). -/
theorem branchEval_of_out_of_range {f : Nat} (h : 32 ≤ f) (sw dz : Bool) :
    branchEval f sw dz = .raised ⟨.invalidSelector, .branchEvaluator, f⟩ := by
  rw [branchEval, if_neg (Nat.not_lt.mpr h)]

/-- The field whose index bank B leaves unused (44_branch_evaluator.md R189). -/
theorem branchEval_twentyThree (sw dz : Bool) :
    branchEval 0o23 sw dz = .raised ⟨.invalidSelector, .branchEvaluator, 0o23⟩ :=
  branchEval_of_muxB_raised (by decide) (by decide) rfl

/-- The four fields with a value give 1 for the switch set or D zero, and 0 otherwise (95_test_vectors.md section 2.5). -/
theorem branchEval_of_valued {f : Nat} (h : f ∈ [0o00, 0o06, 0o12, 0o24]) (sw dz : Bool) :
    branchEval f sw dz = .value (if f = 0o06 ∧ sw = true ∨ f = 0o12 ∧ dz = true then 1 else 0) := by
  simp only [List.mem_cons, List.not_mem_nil, or_false] at h
  rcases h with rfl | rfl | rfl | rfl
  · rfl
  · simpa using branchEval_six sw dz
  · simpa using branchEval_twelve sw dz
  · rfl

/-! ## The list form of the ROM -/

/-- Canonical ROMs that agree on every address the pointer can hold are the same list: above 255 neither lists
anything. -/
theorem Memory.ext_of_microAddr {m m' : Memory} (h : Memory.wf m = true) (h' : Memory.wf m' = true)
    (hr : ∀ a : MicroAddr, Memory.read m a.toNat = Memory.read m' a.toNat) : m = m' := by
  refine Memory.ext_of_wf h h' fun a => ?_
  rcases Nat.lt_or_ge a 256 with ha | ha
  · have haddr : (BitVec.ofNat 8 a).toNat = a := Nat.mod_eq_of_lt ha
    rw [← haddr]
    exact hr _
  · rw [Memory.read_above h ha, Memory.read_above h' ha]

/-! ## The obligations -/

/-- Settles O33: the fields with a value, the two ways to be invalid, and the rest of the range. -/
theorem branchEvaluatorOnEveryField : Obligations.BranchEvaluatorOnEveryField := by
  intro f sw dz
  refine ⟨fun h => ⟨_, branchEval_of_valued h sw dz, ?_, ?_⟩, ?_, fun hlt h => branchEval_of_unspecified hlt h sw dz⟩
  · split <;> simp_all
  · split <;> simp_all
  · rintro (rfl | hrange)
    · exact branchEval_twentyThree sw dz
    · exact branchEval_of_out_of_range hrange sw dz

/-- Settles O38: by the laws of the load, on addresses of eight bits. -/
theorem loadingAnEntryChangesThatEntryOnly : Obligations.LoadingAnEntryChangesThatEntryOnly := by
  refine ⟨fun m a b e h => ⟨Memory.wf_load h a e, ?_, fun hab => ?_⟩, fun _ _ => Memory.ext_of_microAddr⟩
  · rw [Memory.read_load h, if_pos rfl]
  · rw [Memory.read_load h, if_neg fun heq => hab (BitVec.eq_of_toNat_eq heq)]

/-- Settles O6: the table, mode by mode. -/
theorem pulseTableOfEachMode : Obligations.PulseTableOfEachMode := by
  refine ⟨⟨rfl, rfl⟩, ⟨rfl, rfl⟩, ⟨rfl, rfl⟩, ⟨rfl, rfl⟩, fun m => ?_⟩
  cases m <;> rfl

/-- Settles O8: CL1 and CL2 go through one pulse, which is due; of CL3's two, P2 is not. -/
theorem exactlyOnePulseOfACycleIsDue : Obligations.ExactlyOnePulseOfACycleIsDue := by
  intro m hm
  cases m with
  | off => exact absurd rfl hm
  | cl1 => rfl
  | cl2 => rfl
  | cl3 => rfl

/-- Settles O28: both banks give 0 at index 4, whatever the switch and D hold. -/
theorem branchRowTwentyFourGivesZero : Obligations.BranchRowTwentyFourGivesZero :=
  branchRowGives_of_branchEval (i := .but24) rfl fun _ => rfl

end Sys2Proof.Machine
end

section
/-! PROOFS. The cycle as one function (45_micro_cycle_engine.md): the ends of a cycle as equations, what a completed cycle
came from, the rows a cycle runs, and the branch pipeline over a run. -/

namespace Sys2Proof.Machine

/-! ## The ends of a cycle -/

/-- A cycle whose register-transfer step completes and whose fetched word selects no mode aborts after S7
(45_micro_cycle_engine.md R217). -/
theorem step_of_clock_raised {s : State} {w : MicroWord} {e : Byte} {c : AbortCause} (hs : s.Ready)
    (hr : Memory.read s.rom s.nextAddress.toNat = some w) (hb : branchEval w.brf s.sw (dIsZero s.d) = .value e)
    (hc : clockSelect w.clkf = .raised c) :
    step s = .next (raise c ((setMoves s.moves.tail s).afterRt w e)) := by
  have hrt : rtStep (setMoves s.moves.tail s) = .next ((setMoves s.moves.tail s).afterRt w e) :=
    rtStep_of_branch_value hs.running hr hb
  have hsel : clockSelect ((setMoves s.moves.tail s).afterRt w e).cw.clkf = .raised c := hc
  rw [step_of_rtStep_completed hs hrt hs.running, hsel, settle]

/-- A cycle that completes fetched a word with a branch value and a next mode, and is the register-transfer step on them
followed by that mode. -/
theorem completed_step_eq {s t : State} (hs : s.Ready) (h : step s = .next t) (ht : t.fault = none) :
    ∃ w e m, Memory.read s.rom s.nextAddress.toNat = some w ∧ branchEval w.brf s.sw (dIsZero s.d) = .value e ∧
      clockSelect w.clkf = .value m ∧ t = setMode m ((setMoves s.moves.tail s).afterRt w e) := by
  obtain ⟨u, hrt, hend⟩ := step_cases_of_ready hs h
  obtain ⟨hab, rfl⟩ | ⟨hu, m, hm, rfl⟩ | ⟨_, c, _, rfl⟩ := hend
  · exact absurd ht hab
  · obtain ⟨_, rfl⟩ | ⟨w, hr, ⟨c, _, rfl⟩ | ⟨e, he, rfl⟩⟩ := rtStep_cases (by exact hs.running) hrt
    · cases hu
    · cases hu
    · exact ⟨w, e, m, hr, he, hm, rfl⟩
  · cases ht

/-! ## The rows of a cycle -/

/-- PROG of the current word and IMPL.1 are S1 to S4 of a cycle that finds an implemented entry; the rest follows from
the latched word (45_micro_cycle_engine.md R213). -/
theorem andThen_exec_prog_impl1 {s : State} {w : MicroWord} (hf : s.fault = none)
    (hr : Memory.read s.rom s.nextAddress.toNat = some w) (k : State → Outcome) :
    (andThen (exec (.prog s.cw.prog) s) fun s => andThen (exec .impl1 s) k) =
      k (latchWord w (latchPointers s.nextAddress s)) := by
  have hlatched : (latchPointers s.nextAddress s).fault = none := hf
  have hfetch : romFetch (latchPointers s.nextAddress s).rom (latchPointers s.nextAddress s).ptr = .value w :=
    romFetch_of_some hr
  have haddr : formAddress s.cw.prog s.but = s.nextAddress := rfl
  rw [exec_prog_of_running hf, haddr, andThen_of_none hlatched, exec_impl1_of_running hlatched, hfetch, settle,
    andThen_of_none (by exact hf)]

/-- The BUT row after the in-flux latch moved, the display draw and the CLK row are S5 to S7 and the selection
(45_micro_cycle_engine.md R210, R213). -/
theorem step_of_decoded_rows {s : State} {w : MicroWord} {ib ic : Instr} (hs : s.Ready)
    (hr : Memory.read s.rom s.nextAddress.toNat = some w) (hib : ib.field = .brf ∧ ib.value = w.brf)
    (hic : ic.field = .clkf ∧ ic.value = w.clkf) :
    step s =
      andThen (exec ib (advanceBranch (latchWord w (latchPointers s.nextAddress (setMoves s.moves.tail s)))))
        fun s => exec ic (latchDisplay s) := by
  have hf := hs.running
  obtain ⟨hbf, hbv⟩ := hib
  obtain ⟨hcf, hcv⟩ := hic
  have hrow : exec ib (advanceBranch (latchWord w (latchPointers s.nextAddress (setMoves s.moves.tail s)))) =
      settle (branchEval w.brf s.sw (dIsZero s.d)) latchBranch
        (advanceBranch (latchWord w (latchPointers s.nextAddress (setMoves s.moves.tail s)))) := by
    rw [exec_brf hbf (by exact hf), hbv]
    rfl
  have hrt := rtStep_of_implemented (s := setMoves s.moves.tail s) hf hr
  rw [step_of_ready_evalClock hs, hrt, andThen_assoc, hrow, setMoves_sw, setMoves_d]
  cases branchEval w.brf s.sw (dIsZero s.d) with
  | raised c => rfl
  | value e =>
    rw [settle, andThen_of_none (by exact hf), andThen_of_none (by exact hf), settle, andThen_of_none (by exact hf),
      exec_of_clkf hcf, hcv]
    rfl

/-! ## The branch pipeline -/

/-- What reset leaves in the latches, in D and in the schedule, with entry 0 implemented or not. -/
theorem resetWith_latches (p : ResetParams) (rom : Memory) :
    (State.resetWith p rom).moves = [] ∧ (State.resetWith p rom).d = p.d ∧
      (State.resetWith p rom).but = 0 ∧ (State.resetWith p rom).butNext = p.butNext := by
  rw [State.resetWith]
  cases romFetch rom 0 with
  | value w => exact ⟨rfl, rfl, rfl, rfl⟩
  | raised c => exact ⟨rfl, rfl, rfl, rfl⟩

/-- One stage of the pipeline, the environment having set the switch: the live latch goes into the address, the in-flux
one into the live one, and the fetched word's branch value into the in-flux one (45_micro_cycle_engine.md R215). -/
theorem pipeline_stage {s t : State} {x : Bool} (hm : s.moves = []) (h : step (writeSwitch x s) = .next t)
    (ht : t.fault = none) :
    (t.moves = [] ∧ t.d = s.d) ∧ t.ptr = s.cw.prog ||| s.but ∧ t.but = s.butNext ∧
      branchEval t.cw.brf x (s.d == 0) = .value t.butNext := by
  have hcycle : (writeSwitch x s).nextMove = .cycle := by
    rw [State.nextMove, writeSwitch_moves, hm]
    rfl
  obtain ⟨-, -, hs | hother⟩ := step_next h
  · obtain ⟨w, e, m, -, he, -, rfl⟩ := completed_step_eq hs h ht
    exact ⟨⟨congrArg List.tail hm, rfl⟩, rfl, rfl, he⟩
  · exact absurd hcycle hother

/-- Along a run of cycles the schedule stays used up and D keeps its first value (92_eei_decisions.md D16). -/
theorem pipeline_run_frame {sws : Nat → Bool} {st : Nat → State} {n : Nat} {d : Word} (h0 : (st 0).moves = [])
    (hd : (st 0).d = d)
    (hrun : ∀ k, k < n → step (writeSwitch (sws k) (st k)) = .next (st (k + 1)) ∧ (st (k + 1)).fault = none) :
    ∀ k, k ≤ n → (st k).moves = [] ∧ (st k).d = d := by
  intro k
  induction k with
  | zero => exact fun _ => ⟨h0, hd⟩
  | succ k ih =>
    intro hk
    obtain ⟨hm, hdk⟩ := ih (by omega)
    obtain ⟨hstep, hf⟩ := hrun k (by omega)
    obtain ⟨⟨hm', hd'⟩, -⟩ := pipeline_stage hm hstep hf
    exact ⟨hm', hd'.trans hdk⟩

/-! ## The obligations -/

/-- Settles O40: by the entry at the formed address and the outcome of the branch evaluation. -/
theorem registerTransferStepInOrder : Obligations.RegisterTransferStepInOrder := by
  intro s hf
  dsimp only
  cases hr : Memory.read s.rom (s.cw.prog ||| s.but).toNat with
  | none => exact rtStep_of_unimplemented hf hr
  | some w =>
    dsimp only
    cases hb : branchEval w.brf s.sw (s.d == 0) with
    | raised c => exact rtStep_of_branch_raised hf hr hb
    | value e => exact rtStep_of_branch_value hf hr hb

/-- Settles O45: by the entry at the formed address, the outcome of the branch evaluation and that of the selection. -/
theorem cycleIsOneFunctionOfTheState : Obligations.CycleIsOneFunctionOfTheState := by
  intro s hs
  dsimp only
  cases hr : Memory.read s.rom (s.cw.prog ||| s.but).toNat with
  | none => exact step_of_unimplemented hs hr
  | some w =>
    dsimp only
    cases hb : branchEval w.brf s.sw (s.d == 0) with
    | raised c => exact step_of_branch_raised hs hr hb
    | value e =>
      dsimp only
      cases hc : clockSelect w.clkf with
      | raised c => exact step_of_clock_raised hs hr hb hc
      | value m => exact step_of_completed hs hr hb hc

/-- Settles O43: without the flag the cycle is PROG and IMPL.0; with it the BUT and CLK rows that the word selects have
the values of the fetched record's fields. -/
theorem stepRunsTheDecodedRows : Obligations.StepRunsTheDecodedRows := by
  intro s W hs hr
  have hf : (setMoves s.moves.tail s).fault = none := hs.running
  refine ⟨fun hb => ?_, fun ib ic hib hic => ?_⟩
  · rw [unpack_of_unimplemented hb] at hr
    have hlatched : (latchPointers s.nextAddress (setMoves s.moves.tail s)).fault = none := hs.running
    rw [step_of_unimplemented hs hr]
    refine Eq.trans ?_ (congrArg (andThen · _) (exec_prog_of_running hf _).symm)
    exact ((andThen_of_none hlatched _).trans (exec_impl0_of_running hlatched)).symm
  · have hb : W.getLsbD 31 = true := implemented_of_decodeField (by decide) hib
    obtain ⟨w, hw⟩ : ∃ w, unpack W = some w := ⟨_, unpack_of_implemented hb⟩
    obtain ⟨-, -, -, -, hbrf, hclkf⟩ := values_of_decoded_rows hw
    rw [hw] at hr
    rw [step_of_decoded_rows hs hr (hbrf ib hib) (hclkf ic hic)]
    exact (andThen_exec_prog_impl1 (s := setMoves s.moves.tail s) hf hr fun s =>
      andThen (exec ib (advanceBranch s)) fun s => exec ic (latchDisplay s)).symm

/-- Settles O46: one stage of the pipeline for each of the three steps, with the schedule used up and D kept along the
run from reset. -/
theorem branchValueIsUsedTwoStepsLater : Obligations.BranchValueIsUsedTwoStepsLater := by
  intro p rom sws st n h0 hrun
  obtain ⟨hmoves, hd, hbut, hbutNext⟩ := resetWith_latches p rom
  rw [← h0] at hmoves hd hbut hbutNext
  have hframe := pipeline_run_frame hmoves hd hrun
  have hstage : ∀ k, k < n → (st (k + 1)).ptr = (st k).cw.prog ||| (st k).but ∧ (st (k + 1)).but = (st k).butNext ∧
      branchEval (st (k + 1)).cw.brf (sws k) (p.d == 0) = .value (st (k + 1)).butNext := by
    intro k hk
    obtain ⟨hm, hdk⟩ := hframe k (by omega)
    rw [← hdk]
    exact (pipeline_stage hm (hrun k hk).1 (hrun k hk).2).2
  refine ⟨fun hn => ?_, fun hn => ?_, fun k hk => ?_⟩
  · rw [(hstage 0 (by omega)).1, hbut]
    exact BitVec.or_zero
  · rw [(hstage 1 (by omega)).1, (hstage 0 (by omega)).2.1, hbutNext]
  · obtain ⟨-, -, heval⟩ := hstage k (by omega)
    obtain ⟨-, hlive, -⟩ := hstage (k + 1) (by omega)
    obtain ⟨hptr, -, -⟩ := hstage (k + 2) (by omega)
    exact ⟨_, heval, rfl, hlive, by rw [hptr, hlive]⟩

/-- Settles O47: a completed cycle's word has a branch value and a next mode, which do not depend on the mode, and the
cycle completes on them in any mode that is not OFF. -/
theorem completedCycleDoesNotDependOnTheMode : Obligations.CompletedCycleDoesNotDependOnTheMode := by
  intro s t m hs hm h ht
  obtain ⟨w, e, m', hr, he, hc, rfl⟩ := completed_step_eq hs h ht
  have hs' : (setMode m s).Ready := ⟨hs.running, hm, hs.invoked⟩
  exact ⟨_, step_of_completed hs' hr he hc, rfl⟩

end Sys2Proof.Machine
end

section
/-! PROOFS. What each part writes (10_state.md sections 1 and 4): the moves of the environment, the states in which a step
stops, and the frame of every row and of every step. -/

namespace Sys2Proof.Machine

/-! ## The moves of the environment -/

/-- With the schedule used up the next move is the driver's invocation of CYCLE (45_micro_cycle_engine.md R210). -/
theorem step_of_no_moves {s : State} (hf : s.fault = none) (hm : s.moves = []) : step s = cycle s := by
  have hsame : setMoves s.moves.tail s = s := by
    rw [hm, List.tail_nil, ← hm]
    rfl
  rw [step_of_running hf, hsame, State.nextMove, hm]
  rfl

/-- Everything a move other than a cycle can write: the switch, the input and the output ports, the abort record
(10_state.md R31). -/
theorem envMove_frame {e : EnvMove} {s t : State} (hf : s.fault = none) (hc : e ≠ .cycle) (h : envMove e s = .next t) :
    t = { s with
      sw := t.sw, busRd := t.busRd, unibus := t.unibus, carryIn := t.carryIn
      bcOut := t.bcOut, bmuxOut := t.bmuxOut, dmuxOut := t.dmuxOut, fault := t.fault } := by
  rcases envMove_next hf hc h with ⟨_, _, ht⟩ | ⟨_, _, _, _, ht⟩ | ⟨_, ht⟩ | ⟨_, _, _, _, ht⟩ <;> rw [ht]

/-- A step takes one move off the schedule, whichever it is. -/
theorem step_moves {s t : State} (h : step s = .next t) : t.moves = s.moves.tail := by
  obtain ⟨hf, hmove, hready | hother⟩ := step_next h
  · rw [step_next_of_ready hready h]
  · rw [envMove_frame (by exact hf) hother hmove]
    rfl

/-! ## A step that answers a next state -/

theorem step_is_next_of_ready {s : State} (hs : s.Ready) : ∃ t, step s = .next t := by
  cases hr : Memory.read s.rom s.nextAddress.toNat with
  | none => exact ⟨_, step_of_unimplemented hs hr⟩
  | some w =>
    cases hb : branchEval w.brf s.sw (dIsZero s.d) with
    | raised c => exact ⟨_, step_of_branch_raised hs hr hb⟩
    | value e =>
      cases hc : clockSelect w.clkf with
      | raised c => exact ⟨_, step_of_clock_raised hs hr hb hc⟩
      | value m => exact ⟨_, step_of_completed hs hr hb hc⟩

theorem evaluate_is_next {s : State} (hf : s.fault = none) (e : Evaluation) : ∃ t, evaluate e s = .next t := by
  cases e with
  | bcOut =>
    rw [evaluate, evalBcOut_eq, evalConstant_of_running hf]
    exact settle_is_next _ _ _
  | bmuxOut =>
    cases hc : bConst s.cw.bcs s.sclk with
    | raised c => exact ⟨_, evalBmuxOut_of_constant_raised hf hc⟩
    | value v =>
      rw [evaluate, evalBmuxOut_of_constant hf hc]
      exact settle_is_next _ _ _
  | dmuxOut r u ci =>
    rw [evaluate, evalDmuxOut_eq, evalDmux_of_running (by exact hf)]
    exact settle_is_next _ _ _

theorem envMove_is_next {e : EnvMove} {s : State} (hf : s.fault = none) (hc : e ≠ .cycle) :
    ∃ t, envMove e s = .next t := by
  cases e with
  | cycle => exact absurd rfl hc
  | writeSwitch x => exact ⟨_, rfl⟩
  | drive r u c => exact ⟨_, rfl⟩
  | evaluate o => exact evaluate_is_next hf o

/-- The step that is refused (45_micro_cycle_engine.md R222). -/
theorem step_of_cycle_in_off {s : State} (hf : s.fault = none) (hm : s.mode = .off) (hc : s.nextMove = .cycle) :
    step s = .refused .cycleInOff := by
  have hoff : (setMoves s.moves.tail s).mode = .off := hm
  rw [step_of_running hf, hc, envMove, cycle, whenRunning_of_none (by exact hf), hoff]

/-! ## The frame of a row -/

/-- A settled result that aborted wrote the abort record alone, if its value would have left the record as it was. -/
theorem settle_aborted {α : Type} {r : Result α} {k : α → State → State} {s t : State} (hf : s.fault = none)
    (hk : ∀ v, (k v s).fault = s.fault) (h : settle r k s = .next t) (ht : t.fault ≠ none) :
    t = { s with fault := t.fault } := by
  obtain ⟨v, _, rfl⟩ | ⟨c, _, rfl⟩ := settle_next h
  · exact absurd ((hk v).trans hf) ht
  · rfl

theorem exec_aborted {i : Instr} {s t : State} (h : exec i s = .next t) (ht : t.fault ≠ none) :
    t = { s with fault := t.fault } := by
  have hf := fault_of_exec_next h
  cases hi : i.field with
  | impl =>
    rcases eq_impl0_or_impl1_of_field hi with rfl | rfl
    · rw [exec_impl0_of_running hf] at h
      cases h
      rfl
    · rw [exec_impl1_of_running hf] at h
      exact settle_aborted hf (fun _ => rfl) h ht
  | prog =>
    obtain ⟨p, rfl⟩ := exists_eq_prog_of_field hi
    rw [exec_prog_of_running hf] at h
    cases h
    exact absurd hf ht
  | bcs =>
    rw [exec_bcs hi hf] at h
    exact settle_aborted hf (fun _ => rfl) h ht
  | bml =>
    rw [exec_bml hi hf] at h
    cases h
    exact absurd hf ht
  | bmh =>
    rw [exec_bmh hi hf] at h
    cases h
    exact absurd hf ht
  | dms =>
    rw [exec_of_dms hi, evalDmux_of_running hf] at h
    exact settle_aborted hf (fun _ => rfl) h ht
  | brf =>
    rw [exec_brf hi hf] at h
    exact settle_aborted hf (fun _ => rfl) h ht
  | clkf =>
    rw [exec_of_clkf hi, evalClock_of_running hf] at h
    exact settle_aborted hf (fun _ => rfl) h ht

theorem exec_impl_frame {i : Instr} {s t : State} (h : exec i s = .next t) (hi : i.field = .impl) :
    t = { s with cw := t.cw, fault := t.fault } := by
  have hf := fault_of_exec_next h
  rcases eq_impl0_or_impl1_of_field hi with rfl | rfl
  · rw [exec_impl0_of_running hf] at h
    cases h
    rfl
  · rw [exec_impl1_of_running hf] at h
    rcases settle_next h with ⟨w, _, rfl⟩ | ⟨c, _, rfl⟩ <;> rfl

theorem exec_prog_frame {i : Instr} {s t : State} (h : exec i s = .next t) (hi : i.field = .prog) :
    t = { s with ptr := t.ptr, ptrBuf := t.ptrBuf, ptrPrev := t.ptrPrev } := by
  obtain ⟨p, rfl⟩ := exists_eq_prog_of_field hi
  rw [exec_prog_of_running (fault_of_exec_next h)] at h
  cases h
  rfl

theorem exec_bcs_frame {i : Instr} {s t : State} (h : exec i s = .next t) (hi : i.field = .bcs) :
    t = { s with bcOut := t.bcOut, fault := t.fault } := by
  rw [exec_bcs hi (fault_of_exec_next h)] at h
  rcases settle_next h with ⟨v, _, rfl⟩ | ⟨c, _, rfl⟩ <;> rfl

theorem exec_half_frame {i : Instr} {s t : State} (h : exec i s = .next t) (hi : i.field = .bml ∨ i.field = .bmh) :
    t = { s with bmuxOut := t.bmuxOut } := by
  have hf := fault_of_exec_next h
  rcases hi with hi | hi
  · rw [exec_bml hi hf] at h
    cases h
    rfl
  · rw [exec_bmh hi hf] at h
    cases h
    rfl

/-- Every selector in range has a value (43_d_mux.md R150). -/
theorem dMux_of_lt {n : Nat} (h : n < 4) (r u d : Word) (ci : Bool) : ∃ v, dMux n r u d ci = .value v := by
  interval_cases n <;> exact ⟨_, rfl⟩

theorem dms_value_lt {i : Instr} (h : i.field = .dms) : i.value < 4 := by
  cases i <;> simp_all [Instr.field, Instr.value]

theorem exec_dms_frame {i : Instr} {s t : State} (h : exec i s = .next t) (hi : i.field = .dms) :
    t = { s with dmuxOut := t.dmuxOut } := by
  obtain ⟨v, hv⟩ := dMux_of_lt (dms_value_lt hi) s.busRd s.unibus s.d s.carryIn
  rw [exec_dms_of_value hi (fault_of_exec_next h) hv] at h
  cases h
  rfl

theorem exec_brf_frame {i : Instr} {s t : State} (h : exec i s = .next t) (hi : i.field = .brf) :
    t = { s with butNext := t.butNext, fault := t.fault } := by
  rw [exec_brf hi (fault_of_exec_next h)] at h
  rcases settle_next h with ⟨e, _, rfl⟩ | ⟨c, _, rfl⟩ <;> rfl

theorem exec_clkf_frame {i : Instr} {s t : State} (h : exec i s = .next t) (hi : i.field = .clkf) :
    t = { s with mode := t.mode, fault := t.fault } := by
  have hf := fault_of_exec_next h
  rw [exec_of_clkf hi, evalClock_of_running hf] at h
  rcases settle_next h with ⟨m, _, rfl⟩ | ⟨c, _, rfl⟩ <;> rfl

/-! ## The obligations -/

/-- Settles O50: a cycle in OFF is refused; a cycle in another mode has an end in every case, and every other move has a
next state. -/
theorem stepStopsOnlyForACycleInOff : Obligations.StepStopsOnlyForACycleInOff := by
  refine fun s hf => ⟨fun ⟨hm, hc⟩ => step_of_cycle_in_off hf hm hc, fun h => ?_⟩
  by_cases hc : s.nextMove = .cycle
  · exact step_is_next_of_ready ⟨hf, h.resolve_right (fun hne => hne hc), hc⟩
  · rw [step_of_running hf]
    exact envMove_is_next (by exact hf) hc

/-- Settles O51: field by field, each row is its consumer's evaluation. -/
theorem eachRowWritesOnlyItsOwnElements : Obligations.EachRowWritesOnlyItsOwnElements :=
  fun _ _ _ h => ⟨exec_aborted h, exec_impl_frame h, exec_prog_frame h, exec_bcs_frame h, exec_half_frame h,
    exec_dms_frame h, exec_brf_frame h, exec_clkf_frame h⟩

/-- Settles O52: a cycle writes none of these elements, and of the other moves only those named do. -/
theorem stepKeepsWorkingRegistersAndConditions : Obligations.StepKeepsWorkingRegistersAndConditions := by
  intro s t h
  obtain ⟨hf, hmove, hready | hother⟩ := step_next h
  · rw [step_next_of_ready hready h]
    exact ⟨rfl, rfl, rfl, fun _ => rfl, fun _ => ⟨rfl, rfl, rfl⟩⟩
  · rcases envMove_next (by exact hf) hother hmove with
      ⟨x, he, ht⟩ | ⟨r, u, c, he, ht⟩ | ⟨_, ht⟩ | ⟨r, u, c, he, ht⟩
    · rw [ht]
      exact ⟨rfl, rfl, rfl, fun hx => absurd he (hx x), fun _ => ⟨rfl, rfl, rfl⟩⟩
    · rw [ht]
      exact ⟨rfl, rfl, rfl, fun _ => rfl, fun hx => absurd he (hx r u c).1⟩
    · rw [ht]
      exact ⟨rfl, rfl, rfl, fun _ => rfl, fun _ => ⟨rfl, rfl, rfl⟩⟩
    · rw [ht]
      exact ⟨rfl, rfl, rfl, fun _ => rfl, fun hx => absurd he (hx r u c).2⟩

/-- Settles O53: a scheduled move is taken and leaves the schedule, and with none left a cycle is invoked. -/
theorem environmentMovesWriteOnlyTheirPort : Obligations.EnvironmentMovesWriteOnlyTheirPort :=
  ⟨fun _ _ hf => ⟨fun _ => step_of_move hf, fun _ _ _ => step_of_move hf, step_of_move hf, step_of_no_moves hf⟩,
    fun _ _ => step_moves⟩

end Sys2Proof.Machine
end

section
/-! PROOFS. What a step reads: states that agree outside a part that no rule reads step to outcomes that agree outside it
(44_branch_evaluator.md section 1, 30_encoding.md R63, 45_micro_cycle_engine.md R220). -/

namespace Sys2Proof.Machine

/-! ## The branch evaluator and the switch -/

/-- Bank A looks at the switch at index 0o06 alone (44_branch_evaluator.md R163). -/
theorem muxA_switch_irrelevant {i : Nat} (h : i ≠ 0o06) (f : Nat) (sw sw' dz : Bool) :
    muxA f i sw dz = muxA f i sw' dz := by
  unfold muxA
  split
  case h_2 => exact absurd rfl h
  all_goals rfl

/-- Only field 0o06 looks at the switch (44_branch_evaluator.md R161, R176): a field of bank B never reaches bank A. -/
theorem branchEval_switch_irrelevant {f : Nat} (h : f ≠ 0o06) (sw sw' dz : Bool) :
    branchEval f sw dz = branchEval f sw' dz := by
  rcases Nat.lt_or_ge f 16 with hA | hB
  · have hindex : f % 16 ≠ 0o06 := by omega
    rw [branchEval, branchEval, muxA_switch_irrelevant hindex f sw sw' dz]
  · have hbank : f / 16 ≠ 0 := by omega
    rw [branchEval, branchEval, if_neg hbank, if_neg hbank]

/-! ## An erasure that the cycle does not see through -/

/-- The erasure `E` of a part of the state, with the erasure `f` of the same part of a word, goes past every write of a
cycle, and leaves what decides a cycle's course, but for the switch. -/
structure CycleErasure (E : State → State) (f : MicroWord → MicroWord) : Prop where
  fault : ∀ s, (E s).fault = s.fault
  mode : ∀ s, (E s).mode = s.mode
  moves : ∀ s, (E s).moves = s.moves
  nextAddress : ∀ s, (E s).nextAddress = s.nextAddress
  read : ∀ s a, Memory.read (E s).rom a = (Memory.read s.rom a).map f
  d : ∀ s, (E s).d = s.d
  brf : ∀ w, (f w).brf = w.brf
  clkf : ∀ w, (f w).clkf = w.clkf
  setMoves : ∀ ms s, E (setMoves ms s) = setMoves ms (E s)
  latchPointers : ∀ a s, E (latchPointers a s) = latchPointers a (E s)
  latchWord : ∀ w s, E (latchWord w s) = latchWord (f w) (E s)
  advanceBranch : ∀ s, E (advanceBranch s) = advanceBranch (E s)
  latchBranch : ∀ e s, E (latchBranch e s) = latchBranch e (E s)
  latchDisplay : ∀ s, E (latchDisplay s) = { E s with draws := (E s).draws + 1 }
  setMode : ∀ m s, E (setMode m s) = setMode m (E s)
  raise : ∀ c s, E (raise c s) = raise c (E s)

section
variable {E : State → State} {f : MicroWord → MicroWord} {s t : State}

/-- Whether a cycle is the next move and enabled is the same after an erasure. -/
theorem CycleErasure.ready (hE : CycleErasure E f) (h : E s = E t) (hs : s.Ready) : t.Ready := by
  have hmoves : t.moves = s.moves := by rw [← hE.moves t, ← h, hE.moves]
  refine ⟨?_, ?_, ?_⟩
  · rw [← hE.fault t, ← h, hE.fault]
    exact hs.running
  · rw [← hE.mode t, ← h, hE.mode]
    exact hs.on
  · rw [State.nextMove, hmoves]
    exact hs.invoked

theorem CycleErasure.nextAddress_eq (hE : CycleErasure E f) (h : E s = E t) : t.nextAddress = s.nextAddress := by
  rw [← hE.nextAddress t, ← h, hE.nextAddress]

/-- The entries that two states agreeing outside the erased part hold at an address agree outside it. -/
theorem CycleErasure.read_eq (hE : CycleErasure E f) (h : E s = E t) (a : Nat) :
    (Memory.read s.rom a).map f = (Memory.read t.rom a).map f := by
  rw [← hE.read s, h, hE.read]

/-- Register-transfer steps on words that agree outside the erased part leave states that agree outside it. -/
theorem CycleErasure.afterRt_eq (hE : CycleErasure E f) (h : E s = E t) {w v : MicroWord} (hw : f w = f v) (e : Byte)
    (ms : List EnvMove) : E ((Machine.setMoves ms s).afterRt w e) = E ((Machine.setMoves ms t).afterRt v e) := by
  have haddr : t.nextAddress = s.nextAddress := hE.nextAddress_eq h
  have hmoved (u : State) : (Machine.setMoves ms u).nextAddress = u.nextAddress := rfl
  simp only [State.afterRt, hE.latchDisplay, hE.latchBranch, hE.advanceBranch, hE.latchWord, hE.latchPointers,
    hE.setMoves, hmoved, haddr, h, hw]

/-- Words that agree outside the erased part have the same branch value in states that do, if the switch is the same
where the branch field looks at it. -/
theorem CycleErasure.branchEval_eq (hE : CycleErasure E f) (h : E s = E t) {w v : MicroWord} (hw : f w = f v)
    (hsw : w.brf = 0o06 → s.sw = t.sw) :
    branchEval v.brf t.sw (dIsZero t.d) = branchEval w.brf s.sw (dIsZero s.d) := by
  have hd : t.d = s.d := by rw [← hE.d t, ← h, hE.d]
  have hbrf : v.brf = w.brf := by rw [← hE.brf v, ← hw, hE.brf]
  rw [hd, hbrf]
  by_cases hsix : w.brf = 0o06
  · rw [hsw hsix]
  · exact branchEval_switch_irrelevant hsix _ _ _

/-- Enabled cycles from states that agree outside the erased part have outcomes that agree outside it, if the
erased part is not the switch or the fetched word's branch field is not the one that looks at it. -/
theorem CycleErasure.step_eq (hE : CycleErasure E f) (hs : s.Ready) (h : E s = E t)
    (hsw : ∀ w, Memory.read s.rom s.nextAddress.toNat = some w → w.brf = 0o06 → s.sw = t.sw) :
    mapState E (step s) = mapState E (step t) := by
  have ht := hE.ready h hs
  have haddr := hE.nextAddress_eq h
  have hmoves : t.moves = s.moves := by rw [← hE.moves t, ← h, hE.moves]
  have hread := hE.read_eq h s.nextAddress.toNat
  cases hrs : Memory.read s.rom s.nextAddress.toNat with
  | none =>
    have hrt : Memory.read t.rom t.nextAddress.toNat = none := by
      rw [hrs, Option.map_none] at hread
      rw [haddr]
      exact Option.map_eq_none_iff.mp hread.symm
    rw [step_of_unimplemented hs hrs, step_of_unimplemented ht hrt]
    simp only [mapState, hE.raise, hE.latchPointers, hE.setMoves, haddr, hmoves, h]
  | some w =>
    rw [hrs, Option.map_some] at hread
    obtain ⟨v, hv, hvw⟩ := Option.map_eq_some_iff.mp hread.symm
    have hrt : Memory.read t.rom t.nextAddress.toNat = some v := by rw [haddr, hv]
    have hb := hE.branchEval_eq h hvw.symm (hsw w hrs)
    cases hbs : branchEval w.brf s.sw (dIsZero s.d) with
    | raised c =>
      rw [step_of_branch_raised hs hrs hbs, step_of_branch_raised ht hrt (hb.trans hbs)]
      simp only [mapState, hE.raise, hE.advanceBranch, hE.latchWord, hE.latchPointers, hE.setMoves, haddr, hmoves, h,
        hvw]
    | value e =>
      have hclk : v.clkf = w.clkf := by rw [← hE.clkf v, hvw, hE.clkf]
      have hrt' := hE.afterRt_eq h hvw.symm e s.moves.tail
      cases hcs : clockSelect w.clkf with
      | raised c =>
        rw [step_of_clock_raised hs hrs hbs hcs, step_of_clock_raised ht hrt (hb.trans hbs) (by rw [hclk, hcs]), hmoves]
        simp only [mapState, hE.raise, hrt']
      | value m =>
        rw [step_of_completed hs hrs hbs hcs, step_of_completed ht hrt (hb.trans hbs) (by rw [hclk, hcs]), hmoves]
        simp only [mapState, hE.setMode, hrt']

end

/-! ## The three erasures -/

theorem cycleErasure_eraseSwitch : CycleErasure State.eraseSwitch id where
  fault _ := rfl
  mode _ := rfl
  moves _ := rfl
  nextAddress _ := rfl
  read _ _ := (congrFun Option.map_id _).symm
  d _ := rfl
  brf _ := rfl
  clkf _ := rfl
  setMoves _ _ := rfl
  latchPointers _ _ := rfl
  latchWord _ _ := rfl
  advanceBranch _ := rfl
  latchBranch _ _ := rfl
  latchDisplay _ := rfl
  setMode _ _ := rfl
  raise _ _ := rfl

theorem cycleErasure_eraseRest : CycleErasure State.eraseRest wordSansRest where
  fault _ := rfl
  mode _ := rfl
  moves _ := rfl
  nextAddress _ := rfl
  read s := Memory.read_mapWords wordSansRest s.rom
  d _ := rfl
  brf _ := rfl
  clkf _ := rfl
  setMoves _ _ := rfl
  latchPointers _ _ := rfl
  latchWord _ _ := rfl
  advanceBranch _ := rfl
  latchBranch _ _ := rfl
  latchDisplay _ := rfl
  setMode _ _ := rfl
  raise _ _ := rfl

theorem cycleErasure_eraseDataPath : CycleErasure State.eraseDataPath wordSansSelectors where
  fault _ := rfl
  mode _ := rfl
  moves _ := rfl
  nextAddress _ := rfl
  read s := Memory.read_mapWords wordSansSelectors s.rom
  d _ := rfl
  brf _ := rfl
  clkf _ := rfl
  setMoves _ _ := rfl
  latchPointers _ _ := rfl
  latchWord _ _ := rfl
  advanceBranch _ := rfl
  latchBranch _ _ := rfl
  latchDisplay _ := rfl
  setMode _ _ := rfl
  raise _ _ := rfl

/-! ## The other moves and the uninterpreted fields -/

theorem mapState_eraseRest_settle {α : Type} (r : Result α) {k : α → State → State}
    (hk : ∀ v s, (k v s).eraseRest = k v s.eraseRest) (s : State) :
    mapState State.eraseRest (settle r k s) = settle r k s.eraseRest := by
  cases r with
  | value v => exact congrArg Host.Outcome.next (hk v s)
  | raised c => rfl

/-- No evaluation of an output reads the uninterpreted fields (30_encoding.md R63). -/
theorem mapState_eraseRest_evaluate {s : State} (hf : s.fault = none) (e : Evaluation) :
    mapState State.eraseRest (evaluate e s) = evaluate e s.eraseRest := by
  have hf' : s.eraseRest.fault = none := hf
  cases e with
  | bcOut =>
    rw [evaluate, evaluate, evalBcOut_eq, evalBcOut_eq, evalConstant_of_running hf, evalConstant_of_running hf']
    exact mapState_eraseRest_settle _ (fun _ _ => by rfl) s
  | bmuxOut =>
    cases hc : bConst s.cw.bcs s.sclk with
    | raised c =>
      rw [evaluate, evaluate, evalBmuxOut_of_constant_raised hf hc, evalBmuxOut_of_constant_raised hf' hc]
      rfl
    | value v =>
      rw [evaluate, evaluate, evalBmuxOut_of_constant hf hc, evalBmuxOut_of_constant hf' hc]
      exact mapState_eraseRest_settle _ (fun _ _ => by rfl) (setBcOut v s)
  | dmuxOut r u ci =>
    rw [evaluate, evaluate, evalDmuxOut_eq, evalDmuxOut_eq, evalDmux_of_running (by exact hf),
      evalDmux_of_running (by exact hf)]
    exact mapState_eraseRest_settle _ (fun _ _ => by rfl) (driveInputs r u ci s)

theorem mapState_eraseRest_envMove {e : EnvMove} {s : State} (hf : s.fault = none) (hc : e ≠ .cycle) :
    mapState State.eraseRest (envMove e s) = envMove e s.eraseRest := by
  cases e with
  | cycle => exact absurd rfl hc
  | writeSwitch x => rfl
  | drive r u c => rfl
  | evaluate o => exact mapState_eraseRest_evaluate hf o

/-- A step that is no cycle is the same step of the state without the uninterpreted fields. -/
theorem mapState_eraseRest_step {s : State} (hf : s.fault = none) (hc : s.nextMove ≠ .cycle) :
    mapState State.eraseRest (step s) = step s.eraseRest := by
  rw [step_of_running hf, step_of_running (s := s.eraseRest) hf]
  exact mapState_eraseRest_envMove (s := setMoves s.moves.tail s) hf hc

/-! ## The obligations -/

/-- Settles O54: the cycle is blind to the switch where the branch evaluator is. -/
theorem switchReachesACycleOnlyThroughBranchRowSix : Obligations.SwitchReachesACycleOnlyThroughBranchRowSix := by
  intro s t hs h hsix
  exact cycleErasure_eraseSwitch.step_eq hs h fun w hr hw => absurd hw (hsix w hr)

/-- Settles O55: an enabled cycle is blind to the fields, a cycle in OFF is refused, the step after an abort stops with
the record that both states hold, and every other move is blind to the fields too. -/
theorem uninterpretedFieldsAreNotRead : Obligations.UninterpretedFieldsAreNotRead := by
  intro s t h
  have hfault : s.fault = t.fault := (congrArg State.fault h :)
  have hmode : s.mode = t.mode := (congrArg State.mode h :)
  have hmove : s.nextMove = t.nextMove := (congrArg State.nextMove h :)
  cases hf : s.fault with
  | some r => rw [step_of_aborted hf, step_of_aborted (hfault ▸ hf)]
  | none =>
    have hft : t.fault = none := hfault ▸ hf
    by_cases hc : s.nextMove = .cycle
    · by_cases hoff : s.mode = .off
      · rw [step_of_cycle_in_off hf hoff hc, step_of_cycle_in_off hft (hmode ▸ hoff) (hmove ▸ hc)]
      · exact cycleErasure_eraseRest.step_eq ⟨hf, hoff, hc⟩ h fun _ _ _ => (congrArg State.sw h :)
    · rw [mapState_eraseRest_step hf hc, mapState_eraseRest_step hft (hmove ▸ hc), h]

/-- Settles O56: the cycle is blind to the data path, and the switch is no part of it. -/
theorem dataPathDoesNotReachACycle : Obligations.DataPathDoesNotReachACycle := by
  intro s t hs h
  exact cycleErasure_eraseDataPath.step_eq hs h fun _ _ _ => (congrArg State.sw h :)

end Sys2Proof.Machine
end

section
/-! PROOFS. Reset (70_reset_and_hazards.md), the invariant of the machine (10_state.md section 2), and the runs that stay
clean (20_memory.md section 4). -/

namespace Sys2Proof.Machine

/-! ## What reset leaves -/

theorem resetWith_of_unimplemented {p : ResetParams} {rom : Memory} (h : Memory.read rom 0 = none) :
    State.resetWith p rom = raise ⟨.unimplementedMicroaddress, .microRom, 0⟩ (State.created p rom) := by
  rw [State.resetWith, romFetch_of_none (a := 0) h]
  rfl

/-! ## The invariant -/

/-- A branch value has at most its lowest two bits (10_state.md R35). -/
theorem branchEval_lt_four {f : Nat} {sw dz : Bool} {e : Byte} (h : branchEval f sw dz = .value e) : e.toNat < 4 :=
  Nat.lt_of_le_of_lt (branchEval_le_one h) (by decide)

/-- The invariant holds after reset: the word latched is the entry at pointer 0 (70_reset_and_hazards.md R271). -/
theorem resetWith_inv {p : ResetParams} {rom : Memory} (hrom : Memory.wf rom = true) (hbut : p.butNext.toNat < 4) :
    (State.resetWith p rom).Inv := by
  cases hr : Memory.read rom 0 with
  | none =>
    rw [resetWith_of_unimplemented hr]
    exact ⟨hrom, ClockMode.noConfusion, Nat.zero_lt_succ 3, hbut, fun hf => by cases hf⟩
  | some w =>
    rw [resetWith_of_implemented hr]
    exact ⟨hrom, ClockMode.noConfusion, Nat.zero_lt_succ 3, hbut, fun _ => hr⟩

theorem inv_raise {c : AbortCause} {s : State} (h : s.Inv) : (raise c s).Inv :=
  ⟨h.romWf, h.modeOn, h.butBits, h.butNextBits, fun hf => by cases hf⟩

theorem inv_setMoves {ms : List EnvMove} {s : State} (h : s.Inv) : (setMoves ms s).Inv :=
  ⟨h.romWf, h.modeOn, h.butBits, h.butNextBits, h.currentWord⟩

theorem inv_setMode {m : ClockMode} {s : State} (hm : m ≠ .off) (h : s.Inv) : (setMode m s).Inv :=
  ⟨h.romWf, hm, h.butBits, h.butNextBits, h.currentWord⟩

/-- The register-transfer step keeps the invariant: it latches the word it fetched at the pointer, and a branch value
that has come through the evaluator (10_state.md R24, R35). -/
theorem rtStep_inv {s t : State} (hf : s.fault = none) (hi : s.Inv) (h : rtStep s = .next t) : t.Inv := by
  obtain ⟨_, rfl⟩ | ⟨w, hr, ⟨c, _, rfl⟩ | ⟨e, he, rfl⟩⟩ := rtStep_cases hf h
  · exact ⟨hi.romWf, hi.modeOn, hi.butBits, hi.butNextBits, fun hf' => by cases hf'⟩
  · exact ⟨hi.romWf, hi.modeOn, hi.butNextBits, hi.butNextBits, fun hf' => by cases hf'⟩
  · exact ⟨hi.romWf, hi.modeOn, hi.butNextBits, branchEval_lt_four he, fun _ => hr⟩

/-- An enabled cycle keeps the invariant: the selection of the next mode never gives OFF (10_state.md R11). -/
theorem step_inv_of_ready {s t : State} (hs : s.Ready) (hi : s.Inv) (h : step s = .next t) : t.Inv := by
  obtain ⟨u, hrt, hend⟩ := step_cases_of_ready hs h
  have hu : u.Inv := rtStep_inv (by exact hs.running) (inv_setMoves hi) hrt
  obtain ⟨_, rfl⟩ | ⟨_, m, hm, rfl⟩ | ⟨_, c, _, rfl⟩ := hend
  · exact hu
  · exact inv_setMode (clockSelect_on hm) hu
  · exact inv_raise hu

/-- A move other than a cycle keeps the invariant: it writes none of the elements that the invariant speaks of. -/
theorem envMove_inv {e : EnvMove} {s t : State} (hf : s.fault = none) (hc : e ≠ .cycle) (hi : s.Inv)
    (h : envMove e s = .next t) : t.Inv := by
  have hword : Memory.read s.rom s.ptr.toNat = some s.cw := hi.currentWord hf
  rw [envMove_frame hf hc h]
  exact ⟨hi.romWf, hi.modeOn, hi.butBits, hi.butNextBits, fun _ => hword⟩

theorem step_inv {s t : State} (hi : s.Inv) (h : step s = .next t) : t.Inv := by
  obtain ⟨hf, hmove, hready | hother⟩ := step_next h
  · exact step_inv_of_ready hready hi h
  · exact envMove_inv (by exact hf) hother (inv_setMoves hi) hmove

/-! ## The words that run clean -/

/-- The clock fields of ClockOk select a mode (20_memory.md R53). -/
theorem clockSelect_of_clockOk {w : MicroWord} (h : clockOk w = true) : ∃ m, clockSelect w.clkf = .value m := by
  simp only [clockOk, Bool.and_eq_true, decide_eq_true_eq] at h
  obtain ⟨hlo, hhi⟩ := h
  interval_cases w.clkf <;> exact ⟨_, rfl⟩

/-- The selectors of a DatapathClean word: the generator has a constant, both muxes are in range (20_memory.md R53). -/
theorem selectors_of_datapathClean {w : MicroWord} (h : datapathClean w = true) :
    (∀ k, ∃ c, bConst w.bcs k = .value c) ∧ w.bms < 16 ∧ w.dms < 4 := by
  simp only [datapathClean, Bool.and_eq_true, decide_eq_true_eq, List.contains_iff_mem, List.mem_cons,
    List.not_mem_nil, or_false] at h
  obtain ⟨⟨hbcs, hbms⟩, hdms⟩ := h
  refine ⟨fun k => ?_, by omega, by omega⟩
  rcases hbcs with h | h | h | h | h | h | h | h | h <;> rw [h] <;> exact ⟨_, rfl⟩

/-- An evaluation of any output under a DatapathClean word answers a next state without an abort. -/
theorem evaluate_of_datapathClean {s : State} (hf : s.fault = none) (hd : datapathClean s.cw = true) (e : Evaluation) :
    ∃ t, evaluate e s = .next t ∧ t.fault = none := by
  obtain ⟨hbcs, hbms, hdms⟩ := selectors_of_datapathClean hd
  obtain ⟨c, hc⟩ := hbcs s.sclk
  cases e with
  | bcOut =>
    refine ⟨setBcOut c s, ?_, hf⟩
    rw [evaluate, evalBcOut_eq, evalConstant_of_running hf, hc, settle]
  | bmuxOut =>
    rw [evaluate, evalBmuxOut_of_constant hf hc, bMux_of_lt hbms]
    exact ⟨_, rfl, hf⟩
  | dmuxOut r u ci =>
    have hrun : (driveInputs r u ci s).fault = none := hf
    obtain ⟨v, hv⟩ := dMux_of_lt hdms r u s.d ci
    refine ⟨setDmuxOut v (driveInputs r u ci s), ?_, hrun⟩
    rw [evaluate, evalDmuxOut_eq, evalDmux_of_running hrun]
    exact congrArg (fun x => settle x setDmuxOut (driveInputs r u ci s)) hv

/-! ## The clean states -/

/-- A next move that is not the driver's own invocation of CYCLE stands in the schedule (log 8). -/
theorem mem_moves_of_nextMove {s : State} {e : EnvMove} (h : s.nextMove = e) (hc : e ≠ .cycle) : e ∈ s.moves := by
  cases hm : s.moves with
  | nil =>
    rw [State.nextMove, hm] at h
    exact absurd h.symm hc
  | cons e' ms =>
    rw [State.nextMove, hm] at h
    exact h ▸ List.mem_cons_self

/-- The address a clean state leads to lies in the set, whether the live latch holds 0 or 1. -/
theorem nextAddress_mem_of_clean {addresses : List MicroAddr} {s : State} (h : s.Clean addresses) :
    s.nextAddress ∈ addresses := by
  have hbut : s.but = 0 ∨ s.but = 1 := by
    have hle := h.butBit
    rcases Nat.le_one_iff_eq_zero_or_eq_one.mp hle with h0 | h1
    · exact .inl (BitVec.eq_of_toNat_eq h0)
    · exact .inr (BitVec.eq_of_toNat_eq h1)
  rcases hbut with h0 | h1
  · have haddr : s.nextAddress = s.cw.prog := by
      rw [State.nextAddress, formAddress, h0]
      exact BitVec.or_zero
    rw [haddr]
    exact h.leads
  · rw [State.nextAddress, formAddress, h1]
    exact h.leadsTaken

theorem clean_setMoves_tail {addresses : List MicroAddr} {s : State} (h : s.Clean addresses) :
    (setMoves s.moves.tail s).Clean addresses :=
  ⟨h.running, h.on, h.butBit, h.butNextBit, h.leads, h.leadsTaken, h.runsClean,
    h.outputs.imp_left fun hquiet e he => hquiet e (List.mem_of_mem_tail he)⟩

/-- The cycle from a clean state completes, in a clean state: the entry it fetches is one of the set. -/
theorem cycle_clean {addresses : List MicroAddr} {s : State} (hs : s.Ready) (h : s.Clean addresses) :
    ∃ t, step s = .next t ∧ t.fault = none ∧ t.Clean addresses := by
  have hmem := nextAddress_mem_of_clean h
  obtain ⟨w, hr, hclock, hbranch, hleads, htaken⟩ := h.runsClean _ hmem
  obtain ⟨e, he⟩ := branchEval_of_branchOk hbranch s.sw (dIsZero s.d)
  obtain ⟨m, hm⟩ := clockSelect_of_clockOk hclock
  refine ⟨_, step_of_completed hs hr he hm, hs.running, hs.running, clockSelect_on hm, h.butNextBit,
    branchEval_le_one he, hleads, htaken, h.runsClean, ?_⟩
  exact (clean_setMoves_tail h).outputs.imp_right fun ⟨_, hwords⟩ => ⟨hwords _ hmem _ hr, hwords⟩

/-- Any other move from a clean state completes: an evaluation stands in the schedule only where the words are
DatapathClean. -/
theorem envMove_completes_of_clean {addresses : List MicroAddr} {s : State} (hc : s.nextMove ≠ .cycle)
    (h : s.Clean addresses) : ∃ t, envMove s.nextMove (setMoves s.moves.tail s) = .next t ∧ t.fault = none := by
  cases hm : s.nextMove with
  | cycle => exact absurd hm hc
  | writeSwitch x => exact ⟨_, rfl, h.running⟩
  | drive r u c => exact ⟨_, rfl, h.running⟩
  | evaluate e =>
    have hmem := mem_moves_of_nextMove hm (by simp)
    rcases h.outputs with hquiet | ⟨hword, -⟩
    · exact absurd (hquiet _ hmem) (by simp [EnvMove.quiet])
    · exact evaluate_of_datapathClean (s := setMoves s.moves.tail s) h.running hword e

/-- A move other than a cycle that does not abort leaves a clean state clean: it writes none of the elements that
cleanness speaks of. -/
theorem envMove_clean {addresses : List MicroAddr} {e : EnvMove} {s t : State} (hc : e ≠ .cycle)
    (h : s.Clean addresses) (hmove : envMove e s = .next t) (ht : t.fault = none) : t.Clean addresses := by
  rw [envMove_frame h.running hc hmove]
  exact ⟨ht, h.on, h.butBit, h.butNextBit, h.leads, h.leadsTaken, h.runsClean, h.outputs⟩

theorem step_clean {addresses : List MicroAddr} {s : State} (h : s.Clean addresses) :
    ∃ t, step s = .next t ∧ t.fault = none ∧ t.Clean addresses := by
  by_cases hc : s.nextMove = .cycle
  · exact cycle_clean ⟨h.running, h.on, hc⟩ h
  · obtain ⟨t, hmove, ht⟩ := envMove_completes_of_clean hc h
    exact ⟨t, (step_of_running h.running).trans hmove, ht, envMove_clean hc (clean_setMoves_tail h) hmove ht⟩

/-- A run of one step more goes on from the state the first step answers. -/
theorem run_of_step_next {M : Host.Core} {s t : M.State} (h : M.step s = .next t) (n : Nat) :
    Host.Core.run M (n + 1) s = Host.Core.run M n t := by
  rw [Host.Core.run, h]

theorem safeRun_of_clean {addresses : List MicroAddr} {s : State} (h : s.Clean addresses) : SafeRun s := by
  intro n
  induction n generalizing s with
  | zero => exact ⟨s, rfl, h.running⟩
  | succ n ih =>
    obtain ⟨u, hstep, -, hu⟩ := step_clean h
    rw [run_of_step_next (M := core) hstep]
    exact ih hu

/-! ## The obligations -/

/-- Settles O57: by the outcome of the reset fetch. -/
theorem resetLeavesTheStatedValues : Obligations.ResetLeavesTheStatedValues := by
  refine ⟨fun p rom w h => ?_, fun p rom h => ?_, rfl⟩
  · rw [resetWith_of_implemented h]
    exact ⟨rfl, rfl, rfl, rfl⟩
  · rw [resetWith_of_unimplemented h]
    rfl

/-- Settles O58: the reset word is the entry at pointer 0, or the run has aborted; and a reset that leads into the set
meets every clause of a clean state. -/
theorem resetMeetsTheInvariant : Obligations.ResetMeetsTheInvariant := by
  refine ⟨resetWith_inv (p := {}) (rom := []) rfl (by decide), fun p rom => resetWith_inv, ?_⟩
  intro p rom w0 addresses ms h0 hleads htaken hclean hbut houtputs
  rw [resetWith_of_implemented h0]
  exact ⟨rfl, ClockMode.noConfusion, Nat.zero_le _, hbut, hleads, htaken, hclean, houtputs⟩

/-- Settles O59: a step is an enabled cycle, which fetches the word it latches and selects a mode that is not OFF, or a
move that writes none of what the invariant speaks of. -/
theorem stepKeepsTheInvariant : Obligations.StepKeepsTheInvariant := fun _ _ => step_inv

/-- Settles O60: by the next move, a cycle or another one, and for a run by induction on its length. -/
theorem cleanProgramsRunSafely : Obligations.CleanProgramsRunSafely :=
  ⟨fun _ _ => step_clean, fun _ _ => safeRun_of_clean⟩

end Sys2Proof.Machine
end
